-- ==== Sys2Proof/Word.lean ====
section
/-! DEFINITION. The two widths of the core (`spec/00_scope.md` R6): data values are 8 bits, PC and addresses 16 bits. -/

namespace Sys2Proof

/-- A data value, a register A, X, Y, SP, or the status register P: 8 bits, wrapping (R6). -/
abbrev Byte := BitVec 8

/-- PC or an address: 16 bits, wrapping (R6). -/
abbrev Word := BitVec 16

end Sys2Proof
end

