-- ==== Sys2Proof/Config.lean ====
section
/-! DEFINITION. The two implementation parameters of `spec/00_scope.md` R7; "no other parameter exists". -/

namespace Sys2Proof.Config

/-- The values of `BRK_MODE` (R7): whether BRK pushes a frame (`49_system.md` R240). -/
inductive BrkMode where
  /-- BRK pushes nothing: "vector loading" only. -/
  | vectorOnly
  /-- BRK pushes the return address and the status register first. -/
  | pushFrame
  deriving DecidableEq, Repr, Inhabited

/-- `BRK_MODE`, OPEN in the spec (R7, D7): no value is fixed here, so a claim holds for both values or names one
(log entry 1, DESIGN CHOICE of form, safe). -/
opaque brkMode : BrkMode

/-- `ZP_PTR_WRAP` (R7): "`true` (pointer high byte read at `(p+1) mod 256`)"; the spec sets it to true (D6; log entry
2, UNVERIFIED, unsafe). -/
def zpPtrWrap : Bool := true

end Sys2Proof.Config
end

