-- ==== Sys2Proof/Syntax.lean ====
section
/-! DEFINITION. The instructions: one constructor for each of the 151 opcodes of `spec/opcode_table.json`
(`30_encoding.md` R84, R85), named by the mnemonic and the addressing mode. A constructor carries the operand of
its format (R81): nothing (I1), the byte `b` (B2), or the word `w = hi:lo` (W3). The suffixes name the modes of
`40_fetch_addressing.md`: Imm R104, Zp R105, ZpX R106, ZpY R107, Abs R108, AbsX and AbsY R109, IndX R110, IndY R111,
Acc R112, Ind R115; no suffix: Implied R113, Relative R114, or JSR's Absolute. -/

namespace Sys2Proof

/-- An instruction of the core: an (instruction, addressing mode) pair of R84 with its operand (log entry 14). -/
inductive Instr where
  -- arithmetic (`41_arithmetic.md`)
  | adcImm (b : Byte)
  | adcZp (b : Byte)
  | adcZpX (b : Byte)
  | adcAbs (w : Word)
  | adcAbsX (w : Word)
  | adcAbsY (w : Word)
  | adcIndX (b : Byte)
  | adcIndY (b : Byte)
  | sbcImm (b : Byte)
  | sbcZp (b : Byte)
  | sbcZpX (b : Byte)
  | sbcAbs (w : Word)
  | sbcAbsX (w : Word)
  | sbcAbsY (w : Word)
  | sbcIndX (b : Byte)
  | sbcIndY (b : Byte)
  -- logical (`42_logical.md`)
  | andImm (b : Byte)
  | andZp (b : Byte)
  | andZpX (b : Byte)
  | andAbs (w : Word)
  | andAbsX (w : Word)
  | andAbsY (w : Word)
  | andIndX (b : Byte)
  | andIndY (b : Byte)
  | oraImm (b : Byte)
  | oraZp (b : Byte)
  | oraZpX (b : Byte)
  | oraAbs (w : Word)
  | oraAbsX (w : Word)
  | oraAbsY (w : Word)
  | oraIndX (b : Byte)
  | oraIndY (b : Byte)
  | eorImm (b : Byte)
  | eorZp (b : Byte)
  | eorZpX (b : Byte)
  | eorAbs (w : Word)
  | eorAbsX (w : Word)
  | eorAbsY (w : Word)
  | eorIndX (b : Byte)
  | eorIndY (b : Byte)
  | bitZp (b : Byte)
  | bitAbs (w : Word)
  -- shifts and rotates (`43_shift_rotate.md`)
  | aslZp (b : Byte)
  | aslZpX (b : Byte)
  | aslAbs (w : Word)
  | aslAbsX (w : Word)
  | aslAcc
  | lsrZp (b : Byte)
  | lsrZpX (b : Byte)
  | lsrAbs (w : Word)
  | lsrAbsX (w : Word)
  | lsrAcc
  | rolZp (b : Byte)
  | rolZpX (b : Byte)
  | rolAbs (w : Word)
  | rolAbsX (w : Word)
  | rolAcc
  | rorZp (b : Byte)
  | rorZpX (b : Byte)
  | rorAbs (w : Word)
  | rorAbsX (w : Word)
  | rorAcc
  -- compare (`44_compare.md`)
  | cmpImm (b : Byte)
  | cmpZp (b : Byte)
  | cmpZpX (b : Byte)
  | cmpAbs (w : Word)
  | cmpAbsX (w : Word)
  | cmpAbsY (w : Word)
  | cmpIndX (b : Byte)
  | cmpIndY (b : Byte)
  | cpxImm (b : Byte)
  | cpxZp (b : Byte)
  | cpxAbs (w : Word)
  | cpyImm (b : Byte)
  | cpyZp (b : Byte)
  | cpyAbs (w : Word)
  -- increment and decrement (`45_incdec.md`)
  | incZp (b : Byte)
  | incZpX (b : Byte)
  | incAbs (w : Word)
  | incAbsX (w : Word)
  | decZp (b : Byte)
  | decZpX (b : Byte)
  | decAbs (w : Word)
  | decAbsX (w : Word)
  | inx
  | iny
  | dex
  | dey
  -- load, store and transfer (`46_load_store_transfer.md`)
  | ldaImm (b : Byte)
  | ldaZp (b : Byte)
  | ldaZpX (b : Byte)
  | ldaAbs (w : Word)
  | ldaAbsX (w : Word)
  | ldaAbsY (w : Word)
  | ldaIndX (b : Byte)
  | ldaIndY (b : Byte)
  | ldxImm (b : Byte)
  | ldxZp (b : Byte)
  | ldxZpY (b : Byte)
  | ldxAbs (w : Word)
  | ldxAbsY (w : Word)
  | ldyImm (b : Byte)
  | ldyZp (b : Byte)
  | ldyZpX (b : Byte)
  | ldyAbs (w : Word)
  | ldyAbsX (w : Word)
  | staZp (b : Byte)
  | staZpX (b : Byte)
  | staAbs (w : Word)
  | staAbsX (w : Word)
  | staAbsY (w : Word)
  | staIndX (b : Byte)
  | staIndY (b : Byte)
  | stxZp (b : Byte)
  | stxZpY (b : Byte)
  | stxAbs (w : Word)
  | styZp (b : Byte)
  | styZpX (b : Byte)
  | styAbs (w : Word)
  | tax
  | tay
  | txa
  | tya
  | tsx
  | txs
  -- control transfer (`47_control_transfer.md`)
  | bcc (b : Byte)
  | bcs (b : Byte)
  | beq (b : Byte)
  | bne (b : Byte)
  | bmi (b : Byte)
  | bpl (b : Byte)
  | bvc (b : Byte)
  | bvs (b : Byte)
  | jmpAbs (w : Word)
  | jmpInd (w : Word)
  | jsr (w : Word)
  | rts
  -- stack and flag (`48_stack_flag.md`)
  | pha
  | pla
  | php
  | plp
  | sec
  | clc
  | sed
  | cld
  | sei
  | cli
  | clv
  -- system (`49_system.md`)
  | brk
  | rti
  | nop
  deriving DecidableEq, Repr

end Sys2Proof
end

