-- ==== Sys2Proof/WellFormed.lean ====
section
/-! DEFINITION. What a well-formed instruction is, as a term and as bytes: its mnemonic (`30_encoding.md` R85), the
operand field of each instruction (R81), its length (R80), the length an opcode byte announces (R83) and the unassigned
bytes (R86).
The lists here are written from R80, R83, R85 and R86 alone, apart from the decoder's map, so that the two can be
held against each other. -/

namespace Sys2Proof

/-- The 56 mnemonics of R85. -/
inductive Mnemonic where
  | adc | sbc
  | and | ora | eor | bit
  | asl | lsr | rol | ror
  | cmp | cpx | cpy
  | inc | dec | inx | iny | dex | dey
  | lda | ldx | ldy | sta | stx | sty | tax | tay | txa | tya | tsx | txs
  | bcc | bcs | beq | bne | bmi | bpl | bvc | bvs | jmp | jsr | rts
  | pha | pla | php | plp | sec | clc | sed | cld | sei | cli | clv
  | brk | rti | nop
  deriving DecidableEq, Repr

/-- The mnemonic of an instruction (R85). -/
def Instr.mnemonic : Instr → Mnemonic
  | .adcImm _ | .adcZp _ | .adcZpX _ | .adcAbs _ | .adcAbsX _ | .adcAbsY _ | .adcIndX _ | .adcIndY _ => .adc
  | .sbcImm _ | .sbcZp _ | .sbcZpX _ | .sbcAbs _ | .sbcAbsX _ | .sbcAbsY _ | .sbcIndX _ | .sbcIndY _ => .sbc
  | .andImm _ | .andZp _ | .andZpX _ | .andAbs _ | .andAbsX _ | .andAbsY _ | .andIndX _ | .andIndY _ => .and
  | .oraImm _ | .oraZp _ | .oraZpX _ | .oraAbs _ | .oraAbsX _ | .oraAbsY _ | .oraIndX _ | .oraIndY _ => .ora
  | .eorImm _ | .eorZp _ | .eorZpX _ | .eorAbs _ | .eorAbsX _ | .eorAbsY _ | .eorIndX _ | .eorIndY _ => .eor
  | .bitZp _ | .bitAbs _ => .bit
  | .aslZp _ | .aslZpX _ | .aslAbs _ | .aslAbsX _ | .aslAcc => .asl
  | .lsrZp _ | .lsrZpX _ | .lsrAbs _ | .lsrAbsX _ | .lsrAcc => .lsr
  | .rolZp _ | .rolZpX _ | .rolAbs _ | .rolAbsX _ | .rolAcc => .rol
  | .rorZp _ | .rorZpX _ | .rorAbs _ | .rorAbsX _ | .rorAcc => .ror
  | .cmpImm _ | .cmpZp _ | .cmpZpX _ | .cmpAbs _ | .cmpAbsX _ | .cmpAbsY _ | .cmpIndX _ | .cmpIndY _ => .cmp
  | .cpxImm _ | .cpxZp _ | .cpxAbs _ => .cpx
  | .cpyImm _ | .cpyZp _ | .cpyAbs _ => .cpy
  | .incZp _ | .incZpX _ | .incAbs _ | .incAbsX _ => .inc
  | .decZp _ | .decZpX _ | .decAbs _ | .decAbsX _ => .dec
  | .inx => .inx
  | .iny => .iny
  | .dex => .dex
  | .dey => .dey
  | .ldaImm _ | .ldaZp _ | .ldaZpX _ | .ldaAbs _ | .ldaAbsX _ | .ldaAbsY _ | .ldaIndX _ | .ldaIndY _ => .lda
  | .ldxImm _ | .ldxZp _ | .ldxZpY _ | .ldxAbs _ | .ldxAbsY _ => .ldx
  | .ldyImm _ | .ldyZp _ | .ldyZpX _ | .ldyAbs _ | .ldyAbsX _ => .ldy
  | .staZp _ | .staZpX _ | .staAbs _ | .staAbsX _ | .staAbsY _ | .staIndX _ | .staIndY _ => .sta
  | .stxZp _ | .stxZpY _ | .stxAbs _ => .stx
  | .styZp _ | .styZpX _ | .styAbs _ => .sty
  | .tax => .tax
  | .tay => .tay
  | .txa => .txa
  | .tya => .tya
  | .tsx => .tsx
  | .txs => .txs
  | .bcc _ => .bcc
  | .bcs _ => .bcs
  | .beq _ => .beq
  | .bne _ => .bne
  | .bmi _ => .bmi
  | .bpl _ => .bpl
  | .bvc _ => .bvc
  | .bvs _ => .bvs
  | .jmpAbs _ | .jmpInd _ => .jmp
  | .jsr _ => .jsr
  | .rts => .rts
  | .pha => .pha
  | .pla => .pla
  | .php => .php
  | .plp => .plp
  | .sec => .sec
  | .clc => .clc
  | .sed => .sed
  | .cld => .cld
  | .sei => .sei
  | .cli => .cli
  | .clv => .clv
  | .brk => .brk
  | .rti => .rti
  | .nop => .nop

/-- The operand field of the three formats of R81: none (I1), `b` (B2), the word of `lo` and `hi` (W3). -/
inductive Field where
  | none
  | byte (b : Byte)
  | word (w : Word)
  deriving DecidableEq, Repr

/-- The operand field an instruction carries, by its format (R81). -/
def Instr.field : Instr → Field
  | .aslAcc | .lsrAcc | .rolAcc | .rorAcc | .inx | .iny | .dex | .dey | .tax | .tay | .txa | .tya | .tsx | .txs
  | .rts | .pha | .pla | .php | .plp | .sec | .clc | .sed | .cld | .sei | .cli | .clv | .brk | .rti | .nop => .none
  | .adcImm b | .adcZp b | .adcZpX b | .adcIndX b | .adcIndY b | .sbcImm b | .sbcZp b | .sbcZpX b | .sbcIndX b
  | .sbcIndY b | .andImm b | .andZp b | .andZpX b | .andIndX b | .andIndY b | .oraImm b | .oraZp b | .oraZpX b
  | .oraIndX b | .oraIndY b | .eorImm b | .eorZp b | .eorZpX b | .eorIndX b | .eorIndY b | .bitZp b | .aslZp b
  | .aslZpX b | .lsrZp b | .lsrZpX b | .rolZp b | .rolZpX b | .rorZp b | .rorZpX b | .cmpImm b | .cmpZp b
  | .cmpZpX b | .cmpIndX b | .cmpIndY b | .cpxImm b | .cpxZp b | .cpyImm b | .cpyZp b | .incZp b | .incZpX b
  | .decZp b | .decZpX b | .ldaImm b | .ldaZp b | .ldaZpX b | .ldaIndX b | .ldaIndY b | .ldxImm b | .ldxZp b
  | .ldxZpY b | .ldyImm b | .ldyZp b | .ldyZpX b | .staZp b | .staZpX b | .staIndX b | .staIndY b | .stxZp b
  | .stxZpY b | .styZp b | .styZpX b | .bcc b | .bcs b | .beq b | .bne b | .bmi b | .bpl b | .bvc b | .bvs b => .byte b
  | .adcAbs w | .adcAbsX w | .adcAbsY w | .sbcAbs w | .sbcAbsX w | .sbcAbsY w | .andAbs w | .andAbsX w | .andAbsY w
  | .oraAbs w | .oraAbsX w | .oraAbsY w | .eorAbs w | .eorAbsX w | .eorAbsY w | .bitAbs w | .aslAbs w | .aslAbsX w
  | .lsrAbs w | .lsrAbsX w | .rolAbs w | .rolAbsX w | .rorAbs w | .rorAbsX w | .cmpAbs w | .cmpAbsX w | .cmpAbsY w
  | .cpxAbs w | .cpyAbs w | .incAbs w | .incAbsX w | .decAbs w | .decAbsX w | .ldaAbs w | .ldaAbsX w | .ldaAbsY w
  | .ldxAbs w | .ldxAbsY w | .ldyAbs w | .ldyAbsX w | .staAbs w | .staAbsX w | .staAbsY w | .stxAbs w | .styAbs w
  | .jmpAbs w | .jmpInd w | .jsr w => .word w

/-- The width of a field in bytes: "0 for implied/accumulator forms, 1 for immediate/zero-page/relative, 2 for
absolute/indirect forms" (R80). -/
def Field.width : Field → Nat
  | .none => 0
  | .byte _ => 1
  | .word _ => 2

/-- The length of an instruction in bytes: the opcode and its operand bytes (R80, R83). -/
def Instr.length (i : Instr) : Nat := 1 + i.field.width

/-- The operand fits its field (R81): a byte below 256, a word below 65536. The field types carry these bounds, so
every term passes (log entry 14); what can be ill-formed is a string of bytes, below. -/
def Instr.wellFormed (i : Instr) : Bool :=
  match i.field with
  | .none => true
  | .byte b => decide (b.toNat < 256)
  | .word w => decide (w.toNat < 65536)

/-- The 105 unassigned opcode bytes, as R86 lists them. -/
def unassignedOpcodes : List Byte :=
  [0x02, 0x03, 0x04, 0x07, 0x0B, 0x0C, 0x0F, 0x12, 0x13, 0x14, 0x17, 0x1A, 0x1B, 0x1C] ++
  [0x1F, 0x22, 0x23, 0x27, 0x2B, 0x2F, 0x32, 0x33, 0x34, 0x37, 0x3A, 0x3B, 0x3C, 0x3F] ++
  [0x42, 0x43, 0x44, 0x47, 0x4B, 0x4F, 0x52, 0x53, 0x54, 0x57, 0x5A, 0x5B, 0x5C, 0x5F] ++
  [0x62, 0x63, 0x64, 0x67, 0x6B, 0x6F, 0x72, 0x73, 0x74, 0x77, 0x7A, 0x7B, 0x7C, 0x7F] ++
  [0x80, 0x82, 0x83, 0x87, 0x89, 0x8B, 0x8F, 0x92, 0x93, 0x97, 0x9B, 0x9C, 0x9E, 0x9F] ++
  [0xA3, 0xA7, 0xAB, 0xAF, 0xB2, 0xB3, 0xB7, 0xBB, 0xBF, 0xC2, 0xC3, 0xC7, 0xCB, 0xCF] ++
  [0xD2, 0xD3, 0xD4, 0xD7, 0xDA, 0xDB, 0xDC, 0xDF, 0xE2, 0xE3, 0xE7, 0xEB, 0xEF, 0xF2] ++
  [0xF3, 0xF4, 0xF7, 0xFA, 0xFB, 0xFC, 0xFF]

/-- The opcodes of the Implied and Accumulator forms of R85: instructions of one byte (R83). -/
def oneByteOpcodes : List Byte :=
  [0x00, 0x08, 0x0A, 0x18, 0x28, 0x2A, 0x38, 0x40, 0x48, 0x4A, 0x58, 0x60, 0x68, 0x6A] ++
  [0x78, 0x88, 0x8A, 0x98, 0x9A, 0xA8, 0xAA, 0xB8, 0xBA, 0xC8, 0xCA, 0xD8, 0xE8, 0xEA] ++
  [0xF8]

/-- The opcodes of the Absolute, Absolute,X, Absolute,Y and Indirect forms of R85: instructions of three bytes (R83). -/
def threeByteOpcodes : List Byte :=
  [0x0D, 0x0E, 0x19, 0x1D, 0x1E, 0x20, 0x2C, 0x2D, 0x2E, 0x39, 0x3D, 0x3E, 0x4C, 0x4D] ++
  [0x4E, 0x59, 0x5D, 0x5E, 0x6C, 0x6D, 0x6E, 0x79, 0x7D, 0x7E, 0x8C, 0x8D, 0x8E, 0x99] ++
  [0x9D, 0xAC, 0xAD, 0xAE, 0xB9, 0xBC, 0xBD, 0xBE, 0xCC, 0xCD, 0xCE, 0xD9, 0xDD, 0xDE] ++
  [0xEC, 0xED, 0xEE, 0xF9, 0xFD, 0xFE]

/-- "A decoder tells the length of an instruction from its opcode byte alone" (R83); an unassigned byte has none. -/
def opcodeLength (op : Byte) : Option Nat :=
  if unassignedOpcodes.contains op then .none
  else if oneByteOpcodes.contains op then some 1
  else if threeByteOpcodes.contains op then some 3
  else some 2

/-- These bytes are exactly one instruction: an assigned opcode byte followed by as many operand bytes as R80 and R83
give it. -/
def wellFormedBytes : List Byte → Bool
  | [] => false
  | op :: operands => opcodeLength op == some (operands.length + 1)

end Sys2Proof
end

