-- ==== Sys2Proof/Decode.lean ====
section
/-! DEFINITION. The decoder and the encoder (`30_encoding.md`). The decoder's map is R84's, row by row: the row is the
high nibble of the opcode, the column the low nibble. The encoder's opcodes are R85's, by mnemonic. Operand words are
little-endian (R82, `20_memory.md` R53). -/

namespace Sys2Proof

/-- `hi:lo`, the word `hi * 256 + lo` (`00_scope.md` R8). -/
def wordOf (hi lo : Byte) : Word := hi ++ lo

/-- Bits 7..0 of a word. -/
def loByte (w : Word) : Byte := w.extractLsb' 0 8

/-- Bits 15..8 of a word. -/
def hiByte (w : Word) : Byte := w.extractLsb' 8 8

/-- `zext_16` of `00_scope.md` R9. -/
def zext16 (b : Byte) : Word := b.zeroExtend 16

/-- `sext_16` of `00_scope.md` R9: the 16-bit two's-complement extension. -/
def sext16 (b : Byte) : Word := b.signExtend 16

/-- What an opcode byte selects (R81): a whole instruction (I1), or one that waits for its operand byte (B2) or its
operand word (W3). -/
inductive Form where
  | i1 (i : Instr)
  | b2 (k : Byte → Instr)
  | w3 (k : Word → Instr)

/-- Row 0x of R84: the assigned columns. -/
def opcodeRow0 : List (Nat × Form) :=
  [(0x0, .i1 .brk), (0x1, .b2 .oraIndX), (0x5, .b2 .oraZp), (0x6, .b2 .aslZp), (0x8, .i1 .php),
   (0x9, .b2 .oraImm), (0xA, .i1 .aslAcc), (0xD, .w3 .oraAbs), (0xE, .w3 .aslAbs)]

/-- Row 1x of R84: the assigned columns. -/
def opcodeRow1 : List (Nat × Form) :=
  [(0x0, .b2 .bpl), (0x1, .b2 .oraIndY), (0x5, .b2 .oraZpX), (0x6, .b2 .aslZpX), (0x8, .i1 .clc),
   (0x9, .w3 .oraAbsY), (0xD, .w3 .oraAbsX), (0xE, .w3 .aslAbsX)]

/-- Row 2x of R84: the assigned columns. -/
def opcodeRow2 : List (Nat × Form) :=
  [(0x0, .w3 .jsr), (0x1, .b2 .andIndX), (0x4, .b2 .bitZp), (0x5, .b2 .andZp), (0x6, .b2 .rolZp),
   (0x8, .i1 .plp), (0x9, .b2 .andImm), (0xA, .i1 .rolAcc), (0xC, .w3 .bitAbs), (0xD, .w3 .andAbs),
   (0xE, .w3 .rolAbs)]

/-- Row 3x of R84: the assigned columns. -/
def opcodeRow3 : List (Nat × Form) :=
  [(0x0, .b2 .bmi), (0x1, .b2 .andIndY), (0x5, .b2 .andZpX), (0x6, .b2 .rolZpX), (0x8, .i1 .sec),
   (0x9, .w3 .andAbsY), (0xD, .w3 .andAbsX), (0xE, .w3 .rolAbsX)]

/-- Row 4x of R84: the assigned columns. -/
def opcodeRow4 : List (Nat × Form) :=
  [(0x0, .i1 .rti), (0x1, .b2 .eorIndX), (0x5, .b2 .eorZp), (0x6, .b2 .lsrZp), (0x8, .i1 .pha),
   (0x9, .b2 .eorImm), (0xA, .i1 .lsrAcc), (0xC, .w3 .jmpAbs), (0xD, .w3 .eorAbs), (0xE, .w3 .lsrAbs)]

/-- Row 5x of R84: the assigned columns. -/
def opcodeRow5 : List (Nat × Form) :=
  [(0x0, .b2 .bvc), (0x1, .b2 .eorIndY), (0x5, .b2 .eorZpX), (0x6, .b2 .lsrZpX), (0x8, .i1 .cli),
   (0x9, .w3 .eorAbsY), (0xD, .w3 .eorAbsX), (0xE, .w3 .lsrAbsX)]

/-- Row 6x of R84: the assigned columns. -/
def opcodeRow6 : List (Nat × Form) :=
  [(0x0, .i1 .rts), (0x1, .b2 .adcIndX), (0x5, .b2 .adcZp), (0x6, .b2 .rorZp), (0x8, .i1 .pla),
   (0x9, .b2 .adcImm), (0xA, .i1 .rorAcc), (0xC, .w3 .jmpInd), (0xD, .w3 .adcAbs), (0xE, .w3 .rorAbs)]

/-- Row 7x of R84: the assigned columns. -/
def opcodeRow7 : List (Nat × Form) :=
  [(0x0, .b2 .bvs), (0x1, .b2 .adcIndY), (0x5, .b2 .adcZpX), (0x6, .b2 .rorZpX), (0x8, .i1 .sei),
   (0x9, .w3 .adcAbsY), (0xD, .w3 .adcAbsX), (0xE, .w3 .rorAbsX)]

/-- Row 8x of R84: the assigned columns. -/
def opcodeRow8 : List (Nat × Form) :=
  [(0x1, .b2 .staIndX), (0x4, .b2 .styZp), (0x5, .b2 .staZp), (0x6, .b2 .stxZp), (0x8, .i1 .dey),
   (0xA, .i1 .txa), (0xC, .w3 .styAbs), (0xD, .w3 .staAbs), (0xE, .w3 .stxAbs)]

/-- Row 9x of R84: the assigned columns. -/
def opcodeRow9 : List (Nat × Form) :=
  [(0x0, .b2 .bcc), (0x1, .b2 .staIndY), (0x4, .b2 .styZpX), (0x5, .b2 .staZpX), (0x6, .b2 .stxZpY),
   (0x8, .i1 .tya), (0x9, .w3 .staAbsY), (0xA, .i1 .txs), (0xD, .w3 .staAbsX)]

/-- Row Ax of R84: the assigned columns. -/
def opcodeRowA : List (Nat × Form) :=
  [(0x0, .b2 .ldyImm), (0x1, .b2 .ldaIndX), (0x2, .b2 .ldxImm), (0x4, .b2 .ldyZp), (0x5, .b2 .ldaZp),
   (0x6, .b2 .ldxZp), (0x8, .i1 .tay), (0x9, .b2 .ldaImm), (0xA, .i1 .tax), (0xC, .w3 .ldyAbs),
   (0xD, .w3 .ldaAbs), (0xE, .w3 .ldxAbs)]

/-- Row Bx of R84: the assigned columns. -/
def opcodeRowB : List (Nat × Form) :=
  [(0x0, .b2 .bcs), (0x1, .b2 .ldaIndY), (0x4, .b2 .ldyZpX), (0x5, .b2 .ldaZpX), (0x6, .b2 .ldxZpY),
   (0x8, .i1 .clv), (0x9, .w3 .ldaAbsY), (0xA, .i1 .tsx), (0xC, .w3 .ldyAbsX), (0xD, .w3 .ldaAbsX),
   (0xE, .w3 .ldxAbsY)]

/-- Row Cx of R84: the assigned columns. -/
def opcodeRowC : List (Nat × Form) :=
  [(0x0, .b2 .cpyImm), (0x1, .b2 .cmpIndX), (0x4, .b2 .cpyZp), (0x5, .b2 .cmpZp), (0x6, .b2 .decZp),
   (0x8, .i1 .iny), (0x9, .b2 .cmpImm), (0xA, .i1 .dex), (0xC, .w3 .cpyAbs), (0xD, .w3 .cmpAbs),
   (0xE, .w3 .decAbs)]

/-- Row Dx of R84: the assigned columns. -/
def opcodeRowD : List (Nat × Form) :=
  [(0x0, .b2 .bne), (0x1, .b2 .cmpIndY), (0x5, .b2 .cmpZpX), (0x6, .b2 .decZpX), (0x8, .i1 .cld),
   (0x9, .w3 .cmpAbsY), (0xD, .w3 .cmpAbsX), (0xE, .w3 .decAbsX)]

/-- Row Ex of R84: the assigned columns. -/
def opcodeRowE : List (Nat × Form) :=
  [(0x0, .b2 .cpxImm), (0x1, .b2 .sbcIndX), (0x4, .b2 .cpxZp), (0x5, .b2 .sbcZp), (0x6, .b2 .incZp),
   (0x8, .i1 .inx), (0x9, .b2 .sbcImm), (0xA, .i1 .nop), (0xC, .w3 .cpxAbs), (0xD, .w3 .sbcAbs),
   (0xE, .w3 .incAbs)]

/-- Row Fx of R84: the assigned columns. -/
def opcodeRowF : List (Nat × Form) :=
  [(0x0, .b2 .beq), (0x1, .b2 .sbcIndY), (0x5, .b2 .sbcZpX), (0x6, .b2 .incZpX), (0x8, .i1 .sed),
   (0x9, .w3 .sbcAbsY), (0xD, .w3 .sbcAbsX), (0xE, .w3 .incAbsX)]

/-- The row of R84 for a high nibble. -/
def opcodeRow : Nat → List (Nat × Form)
  | 0x0 => opcodeRow0
  | 0x1 => opcodeRow1
  | 0x2 => opcodeRow2
  | 0x3 => opcodeRow3
  | 0x4 => opcodeRow4
  | 0x5 => opcodeRow5
  | 0x6 => opcodeRow6
  | 0x7 => opcodeRow7
  | 0x8 => opcodeRow8
  | 0x9 => opcodeRow9
  | 0xA => opcodeRowA
  | 0xB => opcodeRowB
  | 0xC => opcodeRowC
  | 0xD => opcodeRowD
  | 0xE => opcodeRowE
  | 0xF => opcodeRowF
  | _ => []

/-- The entry of a row at a column; `none` where R84 has `--`. -/
def findColumn : List (Nat × Form) → Nat → Option Form
  | [], _ => none
  | (c, f) :: rest, column => if c = column then some f else findColumn rest column

/-- `Decode(op)` of `40_fetch_addressing.md` R102: total on the assigned bytes of R84, `none` on the others (R86). It
reads no state. -/
def opcodeForm (op : Byte) : Option Form := findColumn (opcodeRow (op.toNat / 16)) (op.toNat % 16)

/-- Why a string of bytes does not begin with an instruction. -/
inductive DecodeError where
  /-- There is no byte. -/
  | noBytes
  /-- The first byte is one of the 105 unassigned opcodes (R86). -/
  | unassignedOpcode (op : Byte)
  /-- The string ends inside the operand of this assigned opcode (R80). -/
  | truncated (op : Byte)
  deriving DecidableEq, Repr

/-- Reads one instruction from the front of a string of bytes (R80 to R84) and gives the bytes after it; refuses by
name. -/
def decode : List Byte → Except DecodeError (Instr × List Byte)
  | [] => .error .noBytes
  | op :: rest =>
    match opcodeForm op with
    | none => .error (.unassignedOpcode op)
    | some (.i1 i) => .ok (i, rest)
    | some (.b2 k) =>
      match rest with
      | b :: rest' => .ok (k b, rest')
      | [] => .error (.truncated op)
    | some (.w3 k) =>
      match rest with
      | lo :: hi :: rest' => .ok (k (wordOf hi lo), rest')
      | _ => .error (.truncated op)

/-- The opcode byte of an instruction, by the list of R85. -/
def Instr.opcode : Instr → Byte
  | .adcImm _ => 0x69
  | .adcZp _ => 0x65
  | .adcZpX _ => 0x75
  | .adcAbs _ => 0x6D
  | .adcAbsX _ => 0x7D
  | .adcAbsY _ => 0x79
  | .adcIndX _ => 0x61
  | .adcIndY _ => 0x71
  | .sbcImm _ => 0xE9
  | .sbcZp _ => 0xE5
  | .sbcZpX _ => 0xF5
  | .sbcAbs _ => 0xED
  | .sbcAbsX _ => 0xFD
  | .sbcAbsY _ => 0xF9
  | .sbcIndX _ => 0xE1
  | .sbcIndY _ => 0xF1
  | .andImm _ => 0x29
  | .andZp _ => 0x25
  | .andZpX _ => 0x35
  | .andAbs _ => 0x2D
  | .andAbsX _ => 0x3D
  | .andAbsY _ => 0x39
  | .andIndX _ => 0x21
  | .andIndY _ => 0x31
  | .oraImm _ => 0x09
  | .oraZp _ => 0x05
  | .oraZpX _ => 0x15
  | .oraAbs _ => 0x0D
  | .oraAbsX _ => 0x1D
  | .oraAbsY _ => 0x19
  | .oraIndX _ => 0x01
  | .oraIndY _ => 0x11
  | .eorImm _ => 0x49
  | .eorZp _ => 0x45
  | .eorZpX _ => 0x55
  | .eorAbs _ => 0x4D
  | .eorAbsX _ => 0x5D
  | .eorAbsY _ => 0x59
  | .eorIndX _ => 0x41
  | .eorIndY _ => 0x51
  | .bitZp _ => 0x24
  | .bitAbs _ => 0x2C
  | .aslZp _ => 0x06
  | .aslZpX _ => 0x16
  | .aslAbs _ => 0x0E
  | .aslAbsX _ => 0x1E
  | .aslAcc => 0x0A
  | .lsrZp _ => 0x46
  | .lsrZpX _ => 0x56
  | .lsrAbs _ => 0x4E
  | .lsrAbsX _ => 0x5E
  | .lsrAcc => 0x4A
  | .rolZp _ => 0x26
  | .rolZpX _ => 0x36
  | .rolAbs _ => 0x2E
  | .rolAbsX _ => 0x3E
  | .rolAcc => 0x2A
  | .rorZp _ => 0x66
  | .rorZpX _ => 0x76
  | .rorAbs _ => 0x6E
  | .rorAbsX _ => 0x7E
  | .rorAcc => 0x6A
  | .cmpImm _ => 0xC9
  | .cmpZp _ => 0xC5
  | .cmpZpX _ => 0xD5
  | .cmpAbs _ => 0xCD
  | .cmpAbsX _ => 0xDD
  | .cmpAbsY _ => 0xD9
  | .cmpIndX _ => 0xC1
  | .cmpIndY _ => 0xD1
  | .cpxImm _ => 0xE0
  | .cpxZp _ => 0xE4
  | .cpxAbs _ => 0xEC
  | .cpyImm _ => 0xC0
  | .cpyZp _ => 0xC4
  | .cpyAbs _ => 0xCC
  | .incZp _ => 0xE6
  | .incZpX _ => 0xF6
  | .incAbs _ => 0xEE
  | .incAbsX _ => 0xFE
  | .decZp _ => 0xC6
  | .decZpX _ => 0xD6
  | .decAbs _ => 0xCE
  | .decAbsX _ => 0xDE
  | .inx => 0xE8
  | .iny => 0xC8
  | .dex => 0xCA
  | .dey => 0x88
  | .ldaImm _ => 0xA9
  | .ldaZp _ => 0xA5
  | .ldaZpX _ => 0xB5
  | .ldaAbs _ => 0xAD
  | .ldaAbsX _ => 0xBD
  | .ldaAbsY _ => 0xB9
  | .ldaIndX _ => 0xA1
  | .ldaIndY _ => 0xB1
  | .ldxImm _ => 0xA2
  | .ldxZp _ => 0xA6
  | .ldxZpY _ => 0xB6
  | .ldxAbs _ => 0xAE
  | .ldxAbsY _ => 0xBE
  | .ldyImm _ => 0xA0
  | .ldyZp _ => 0xA4
  | .ldyZpX _ => 0xB4
  | .ldyAbs _ => 0xAC
  | .ldyAbsX _ => 0xBC
  | .staZp _ => 0x85
  | .staZpX _ => 0x95
  | .staAbs _ => 0x8D
  | .staAbsX _ => 0x9D
  | .staAbsY _ => 0x99
  | .staIndX _ => 0x81
  | .staIndY _ => 0x91
  | .stxZp _ => 0x86
  | .stxZpY _ => 0x96
  | .stxAbs _ => 0x8E
  | .styZp _ => 0x84
  | .styZpX _ => 0x94
  | .styAbs _ => 0x8C
  | .tax => 0xAA
  | .tay => 0xA8
  | .txa => 0x8A
  | .tya => 0x98
  | .tsx => 0xBA
  | .txs => 0x9A
  | .bcc _ => 0x90
  | .bcs _ => 0xB0
  | .beq _ => 0xF0
  | .bne _ => 0xD0
  | .bmi _ => 0x30
  | .bpl _ => 0x10
  | .bvc _ => 0x50
  | .bvs _ => 0x70
  | .jmpAbs _ => 0x4C
  | .jmpInd _ => 0x6C
  | .jsr _ => 0x20
  | .rts => 0x60
  | .pha => 0x48
  | .pla => 0x68
  | .php => 0x08
  | .plp => 0x28
  | .sec => 0x38
  | .clc => 0x18
  | .sed => 0xF8
  | .cld => 0xD8
  | .sei => 0x78
  | .cli => 0x58
  | .clv => 0xB8
  | .brk => 0x00
  | .rti => 0x40
  | .nop => 0xEA

/-- The operand bytes of a field, in stream order: `b`; or `lo`, then `hi` (R81). -/
def Field.bytes : Field → List Byte
  | .none => []
  | .byte b => [b]
  | .word w => [loByte w, hiByte w]

/-- The bytes of an instruction in the instruction stream: the opcode, then its operand bytes (R80, R81). -/
def encode (i : Instr) : List Byte := i.opcode :: i.field.bytes

/-- The longest instruction, in bytes (R80). -/
def maxLength : Nat := 3

/-- Byte `k` of an instruction whose bits are the low `nbits` bits of `w`, numbered as `opcode_table.json` numbers
them: bits `8k+7 .. 8k`. -/
def tableByte (nbits w k : Nat) : Byte := BitVec.ofNat 8 (w % 2 ^ nbits / 256 ^ k)

/-- The first `maxLength` bytes of such an instruction; the bits above `nbits` are 0. -/
def tableBytes (nbits w : Nat) : List Byte :=
  [tableByte nbits w 0, tableByte nbits w 1, tableByte nbits w 2]

/-- The instruction the decoder reads from an instruction whose bits are `w`, numbered as the opcode table numbers
them. -/
def decodeTableWord (nbits w : Nat) : Option Instr :=
  match decode (tableBytes nbits w) with
  | .ok (i, _) => some i
  | .error _ => none

end Sys2Proof
end

