-- ==== Sys2Proof/Machine/State.lean ====
section
/-! DEFINITION. The architectural state, "exactly the tuple (A, X, Y, SP, PC, P, Mem)" (`10_state.md` R20), the reasons
a step stops, and the states at construction (R41) and after Reset (R40). -/

namespace Sys2Proof.Machine

/-- The 65,536 bytes of memory (`20_memory.md` R50) as the list of the bytes that are not 0x00, by rising address
(log entry 9, DESIGN CHOICE of representation, safe). -/
abbrev Memory := List Host.Cell

/-- The seven flags of the status register (`10_state.md` R25). -/
inductive Flag where
  /-- Carry, bit 0 (R26). -/
  | c
  /-- Zero, bit 1 (R27). -/
  | z
  /-- Interrupt-Disable, bit 2 (R28). -/
  | i
  /-- Decimal, bit 3 (R29). -/
  | d
  /-- Break, bit 4 (R30). -/
  | b
  /-- Overflow, bit 6 (R32). -/
  | v
  /-- Negative, bit 7 (R33). -/
  | n
  deriving DecidableEq, Repr

/-- The state of the core (R20); there is no other (R38). -/
structure State where
  /-- The accumulator A (R21). -/
  a : Byte
  /-- The index register X (R22). -/
  x : Byte
  /-- The index register Y (R22). -/
  y : Byte
  /-- The stack pointer SP, an offset into page 1 (R23). -/
  sp : Byte
  /-- The program counter PC (R24). -/
  pc : Word
  /-- The bits of the status register P (R25). Bit 5 is hardwired to 1 (R31): read P with `State.status` and write it
  with `State.setStatus` (log entry 10). -/
  p : Byte
  /-- Memory (R50, R56). -/
  mem : Memory
  deriving DecidableEq, Repr

/-- Why the core stops. -/
inductive Fault where
  /-- `UnimplementedOpcode(op)`, the core's one exception (`60_exceptions.md` R260, R261): raised by `step` when the
  fetched opcode byte is one of the 105 unassigned bytes. It carries the state after: PC past the opcode byte, nothing
  else changed (R262; log entry 5). Safe: the spec itself ends the step here. -/
  | unimplementedOpcode (op : Byte) (after : State)
  deriving DecidableEq, Repr

/-- Why an instruction has no meaning in this model. -/
inductive Refusal where
  /-- An instruction whose meaning is not written yet; no arm of `exec` answers it. Safe. -/
  | notModelled (mnemonic : String)
  deriving DecidableEq, Repr

/-- The outcome of an instruction or of a step. -/
abbrev Result := Host.Outcome State Fault Refusal

/-- The state at construction, before any Reset (R41): "zeroed registers, flags = 0x24, PC = 0, and zero-filled
memory". -/
def State.construction : State :=
  { a := 0x00, x := 0x00, y := 0x00, sp := 0x00, pc := 0x0000, p := 0x24, mem := [] }

/-- The state after Reset of the construction state (R40, R290): PC is the word of the zero-filled reset vector (log
entry 8, DEDUCED, safe). -/
def State.reset : State :=
  { a := 0x00, x := 0x00, y := 0x00, sp := 0xFD, pc := 0x0000, p := 0x24, mem := [] }

end Sys2Proof.Machine
end

