-- ==== Sys2Proof/Machine/Ops.lean ====
section
/-! DEFINITION. The named operations over memory, registers and the stack (`10_state.md`, `20_memory.md`), Reset
(`70_reset_and_hazards.md` R290), and the one trap-like entry and its return (`49_system.md` R240, R241;
`60_exceptions.md` R264, R266). -/

namespace Sys2Proof.Machine

/-- What a byte that no cell lists reads as: 0x00, from construction (`10_state.md` R41; `20_memory.md` R56). -/
def Memory.unlisted : Byte := 0x00

/-- The byte at an address. -/
def Memory.read : Memory → Nat → Byte
  | [], _ => Memory.unlisted
  | c :: m, a => if c.1 = a then c.2 else Memory.read m a

/-- The memory without any cell at an address. -/
def Memory.erase : Memory → Nat → Memory
  | [], _ => []
  | c :: m, a => if c.1 = a then Memory.erase m a else c :: Memory.erase m a

/-- The memory with a cell put before the first cell of a higher address. -/
def Memory.insert : Memory → Nat → Byte → Memory
  | [], a, v => [(a, v)]
  | c :: m, a, v => if a < c.1 then (a, v) :: c :: m else c :: Memory.insert m a v

/-- The memory with one byte changed (`20_memory.md` R52), in canonical form: writing what an unlisted byte reads as
removes the cell. -/
def Memory.write (m : Memory) (a : Nat) (v : Byte) : Memory :=
  if v = Memory.unlisted then Memory.erase m a else Memory.insert (Memory.erase m a) a v

/-- The cells lie at strictly rising addresses from `lo` on, below 65536, and none holds what an unlisted byte reads
as. -/
def Memory.wfFrom : Memory → Nat → Bool
  | [], _ => true
  | c :: m, lo => decide (lo ≤ c.1) && decide (c.1 < 65536) && decide (c.2 ≠ Memory.unlisted) && Memory.wfFrom m (c.1 + 1)

/-- The canonical form of memory (log entry 9). -/
def Memory.wf (m : Memory) : Bool := Memory.wfFrom m 0

/-- `MemRead(addr, 1)` (`20_memory.md` R51): no error case, no side effect. -/
def State.readMem (s : State) (addr : Word) : Byte := Memory.read s.mem addr.toNat

/-- `MemWrite(addr, 1, v)` (`20_memory.md` R52): changes no other byte. -/
def State.writeMem (s : State) (addr : Word) (v : Byte) : State :=
  { s with mem := Memory.write s.mem addr.toNat v }

/-- The word whose low byte is at `lo` and high byte at `hi`: little-endian; which address `hi` is depends on the access
(`20_memory.md` R53, R54). -/
def State.readWord (s : State) (lo hi : Word) : Word := wordOf (s.readMem hi) (s.readMem lo)

/-- `A <- v` (`00_scope.md` R10). -/
def State.setA (s : State) (v : Byte) : State := { s with a := v }

/-- `X <- v`. -/
def State.setX (s : State) (v : Byte) : State := { s with x := v }

/-- `Y <- v`. -/
def State.setY (s : State) (v : Byte) : State := { s with y := v }

/-- `SP <- v`. -/
def State.setSP (s : State) (v : Byte) : State := { s with sp := v }

/-- `PC <- target`. -/
def State.setPC (s : State) (target : Word) : State := { s with pc := target }

/-- The place of a flag in P (`10_state.md` R25). -/
def Flag.bit : Flag → Nat
  | .c => 0
  | .z => 1
  | .i => 2
  | .d => 3
  | .b => 4
  | .v => 6
  | .n => 7

/-- The hardwired bit of P: bit 5 (`10_state.md` R31). -/
def hardwiredOne : Byte := 0x20

/-- A read of P: bit 5 always reads as 1 (R31). -/
def State.status (s : State) : Byte := s.p ||| hardwiredOne

/-- A write of the whole of P: "stores bit 5 as 1 whatever value is written" (R31). -/
def State.setStatus (s : State) (v : Byte) : State := { s with p := v ||| hardwiredOne }

/-- A byte with one bit set or cleared. -/
def setBit (v : Byte) (n : Nat) (on : Bool) : Byte :=
  if on then v ||| (1#8 <<< n) else v &&& ~~~(1#8 <<< n)

/-- A read of one flag (`00_scope.md` R10). -/
def State.flag (s : State) (f : Flag) : Bool := s.status.getLsbD f.bit

/-- A write of one flag (`00_scope.md` R10); the other bits of P keep their values. -/
def State.setFlag (s : State) (f : Flag) (on : Bool) : State := s.setStatus (setBit s.status f.bit on)

/-- The address the stack pointer names: `0x0100 + SP`, always in page 1 (`10_state.md` R35). -/
def stackAddr (sp : Byte) : Word := 0x0100 + zext16 sp

/-- `Push(v)` (`10_state.md` R36): store at SP, then decrement. -/
def State.push (s : State) (v : Byte) : State := (s.writeMem (stackAddr s.sp) v).setSP (s.sp - 1)

/-- `Pull()` (`10_state.md` R37): increment, then read. -/
def State.pull (s : State) : Byte × State :=
  let s1 := s.setSP (s.sp + 1)
  (s1.readMem (stackAddr s1.sp), s1)

/-- `Reset()` (`70_reset_and_hazards.md` R290): pushes nothing and writes no memory byte. -/
def performReset (s : State) : State :=
  { a := 0x00, x := 0x00, y := 0x00, sp := 0xFD, pc := s.readWord 0xFFFC 0xFFFD, p := 0x24, mem := s.mem }

/-- The copy of P that PHP and a `PushFrame` BRK push: bits 4 and 5 forced to 1 (`48_stack_flag.md` R222). -/
def pushedStatus (s : State) : Byte := s.status ||| 0x30

/-- What PLP and RTI write to P for a pulled byte: bit 4 cleared, bit 5 set (`48_stack_flag.md` R223). -/
def pulledStatus (v : Byte) : Byte := v &&& 0xEF ||| 0x20

/-- The frame of a `PushFrame` BRK (`49_system.md` R240): BRK address + 2, high byte first, then the copy of P. PC is
past the opcode, so BRK address + 2 is `PC + 1`. -/
def pushBreakFrame (s : State) : State :=
  let ret := s.pc + 1
  ((s.push (hiByte ret)).push (loByte ret)).push (pushedStatus s)

/-- The one trap-like entry (`49_system.md` R240, `60_exceptions.md` R264): the frame, if the mode pushes one; then P.B
and P.I set; then PC from the vector at 0xFFFE. -/
def takeBreak (mode : Config.BrkMode) (s : State) : State :=
  let s1 := match mode with
    | .vectorOnly => s
    | .pushFrame => pushBreakFrame s
  let s2 := (s1.setFlag .b true).setFlag .i true
  s2.setPC (s2.readWord 0xFFFE 0xFFFF)

/-- The return from a trap (`49_system.md` R241, `60_exceptions.md` R266): pulls P, then PC low, then PC high; no + 1. -/
def returnFromInterrupt (s : State) : State :=
  let v := s.pull
  let lo := (v.2.setStatus (pulledStatus v.1)).pull
  let hi := lo.2.pull
  hi.2.setPC (wordOf hi.1 lo.1)

end Sys2Proof.Machine
end

