-- ==== Sys2Proof/Machine/Flags.lean ====
section
/-! DEFINITION. Every flag computation: SetZN (`10_state.md` R34), the adder (`41_arithmetic.md` R130), the comparator
(`44_compare.md` R160) and the one-bit shifters (`43_shift_rotate.md` R150 to R153). -/

namespace Sys2Proof.Machine

/-- `SetZN(v)` (R34): the one shared Zero/Negative update. -/
def State.setZN (s : State) (v : Byte) : State := (s.setFlag .z (v == 0)).setFlag .n (v.getLsbD 7)

/-- Writes A, then Z and N from it. -/
def writeAZN (v : Byte) (s : State) : State := (s.setA v).setZN v

/-- Writes X, then Z and N from it. -/
def writeXZN (v : Byte) (s : State) : State := (s.setX v).setZN v

/-- Writes Y, then Z and N from it. -/
def writeYZN (v : Byte) (s : State) : State := (s.setY v).setZN v

/-- What the adder gives: the 8-bit result, the carry out and the signed overflow (R130). -/
structure AddOut where
  r : Byte
  cout : Bool
  vout : Bool
  deriving DecidableEq, Repr

/-- `AddCore(a, m, c)` (R130). -/
def addCore (a m : Byte) (c : Bool) : AddOut :=
  let sum := a.toNat + m.toNat + c.toNat
  let r := BitVec.ofNat 8 sum
  { r := r
    cout := decide (sum > 255)
    vout := ((a ^^^ r) &&& 0x80 != 0) && ((a ^^^ m) &&& 0x80 == 0) }

/-- `Compare(reg, M)` (R160): C iff `reg >= M` unsigned; Z and N from the difference; V is not written. -/
def compare (reg m : Byte) (s : State) : State :=
  (s.setFlag .c (decide (m.toNat ≤ reg.toNat))).setZN (reg - m)

/-- What a one-bit shift gives: the 8-bit result and the bit shifted out. -/
structure ShiftOut where
  r : Byte
  cout : Bool
  deriving DecidableEq, Repr

/-- One bit to the left, `cin` into bit 0, old bit 7 out (R150, R152). -/
def shiftLeftCore (m : Byte) (cin : Bool) : ShiftOut :=
  { r := m <<< 1 ||| (if cin then 0x01 else 0x00), cout := m.getLsbD 7 }

/-- One bit to the right, `cin` into bit 7, old bit 0 out (R151, R153). -/
def shiftRightCore (m : Byte) (cin : Bool) : ShiftOut :=
  { r := m >>> 1 ||| (if cin then 0x80 else 0x00), cout := m.getLsbD 0 }

end Sys2Proof.Machine
end

