-- ==== Sys2Proof/Machine/Operands.lean ====
section
/-! DEFINITION. The addressing-mode resolver (`40_fetch_addressing.md` R103 to R115). The operand bytes are fetched
already (`Machine/Fetch.lean`); each mode here computes its address from them, the index registers and, for the pointer
modes, memory. -/

namespace Sys2Proof.Machine

/-- Zero Page (R105): an address of page 0. -/
def eaZeroPage (b : Byte) : Word := zext16 b

/-- Zero Page,X (R106): wraps within the zero page. -/
def eaZeroPageX (b : Byte) (s : State) : Word := zext16 (b + s.x)

/-- Zero Page,Y (R107): wraps within the zero page. -/
def eaZeroPageY (b : Byte) (s : State) : Word := zext16 (b + s.y)

/-- Absolute (R108): the operand word. -/
def eaAbsolute (w : Word) : Word := w

/-- Absolute,X (R109): wraps mod 65536. -/
def eaAbsoluteX (w : Word) (s : State) : Word := w + zext16 s.x

/-- Absolute,Y (R109): wraps mod 65536. -/
def eaAbsoluteY (w : Word) (s : State) : Word := w + zext16 s.y

/-- The address of the high byte of the zero-page pointer at `p`, for a value of `ZP_PTR_WRAP` (R110, R111). -/
def pointerHighAddr (wrap : Bool) (p : Byte) : Word := if wrap then zext16 (p + 1) else zext16 p + 1

/-- The zero-page pointer at `p`, for a value of `ZP_PTR_WRAP`. -/
def zeroPagePointer (wrap : Bool) (p : Byte) (s : State) : Word := s.readWord (zext16 p) (pointerHighAddr wrap p)

/-- (Indirect,X) (R110) for a value of `ZP_PTR_WRAP`: X is added to the pointer's address, mod 256. -/
def indirectXWith (wrap : Bool) (b : Byte) (s : State) : Word := zeroPagePointer wrap (b + s.x) s

/-- (Indirect),Y (R111) for a value of `ZP_PTR_WRAP`: Y is added to the pointer, mod 65536. -/
def indirectYWith (wrap : Bool) (b : Byte) (s : State) : Word := zeroPagePointer wrap b s + zext16 s.y

/-- (Indirect,X) (R110) of this core. -/
def eaIndirectX (b : Byte) (s : State) : Word := indirectXWith Config.zpPtrWrap b s

/-- (Indirect),Y (R111) of this core. -/
def eaIndirectY (b : Byte) (s : State) : Word := indirectYWith Config.zpPtrWrap b s

/-- Relative (R114): the displacement added to the PC past the instruction, mod 65536. -/
def relativeTarget (b : Byte) (s : State) : Word := s.pc + sext16 b

/-- An operand that is only read: `Imm(v)` or `Mem(ea)` of R103. -/
inductive Source where
  | imm (v : Byte)
  | mem (ea : Word)
  deriving DecidableEq, Repr

/-- `ReadM()` of R103 for an operand that is only read. -/
def Source.read : Source → State → Byte
  | .imm v, _ => v
  | .mem ea, s => s.readMem ea

/-- An operand that is read and written back: `Mem(ea)` or `Acc` of R103. -/
inductive Place where
  | mem (ea : Word)
  | acc
  deriving DecidableEq, Repr

/-- `ReadM()` of R103 for an operand that is written back. -/
def Place.read : Place → State → Byte
  | .mem ea, s => s.readMem ea
  | .acc, s => s.a

/-- `WriteM(v)` of R103. -/
def Place.write : Place → Byte → State → State
  | .mem ea, v, s => s.writeMem ea v
  | .acc, v, s => s.setA v

end Sys2Proof.Machine
end

