-- ==== Sys2Proof/Machine/Arithmetic.lean ====
section
/-! DEFINITION. ADC and SBC (`41_arithmetic.md`), in binary for both values of P.D (R133). -/

namespace Sys2Proof.Machine

/-- ADC (R131): `A + M + P.C`; C, V, Z and N from the sum. -/
def addWithCarry (src : Source) (s : State) : State :=
  let out := addCore s.a (src.read s) (s.flag .c)
  (((s.setA out.r).setFlag .c out.cout).setFlag .v out.vout).setZN out.r

/-- SBC (R132): "ADC with the operand's bits inverted". -/
def subtractWithBorrow (src : Source) (s : State) : State :=
  let out := addCore s.a (~~~(src.read s)) (s.flag .c)
  (((s.setA out.r).setFlag .c out.cout).setFlag .v out.vout).setZN out.r

/-- `69` ADC Immediate (R131, R104). -/
def execAdcImm (b : Byte) (s : State) : Result := .next (addWithCarry (.imm b) s)

/-- `65` ADC Zero Page (R131, R105). -/
def execAdcZp (b : Byte) (s : State) : Result := .next (addWithCarry (.mem (eaZeroPage b)) s)

/-- `75` ADC Zero Page,X (R131, R106). -/
def execAdcZpX (b : Byte) (s : State) : Result := .next (addWithCarry (.mem (eaZeroPageX b s)) s)

/-- `6D` ADC Absolute (R131, R108). -/
def execAdcAbs (w : Word) (s : State) : Result := .next (addWithCarry (.mem (eaAbsolute w)) s)

/-- `7D` ADC Absolute,X (R131, R109). -/
def execAdcAbsX (w : Word) (s : State) : Result := .next (addWithCarry (.mem (eaAbsoluteX w s)) s)

/-- `79` ADC Absolute,Y (R131, R109). -/
def execAdcAbsY (w : Word) (s : State) : Result := .next (addWithCarry (.mem (eaAbsoluteY w s)) s)

/-- `61` ADC (Indirect,X) (R131, R110). -/
def execAdcIndX (b : Byte) (s : State) : Result := .next (addWithCarry (.mem (eaIndirectX b s)) s)

/-- `71` ADC (Indirect),Y (R131, R111). -/
def execAdcIndY (b : Byte) (s : State) : Result := .next (addWithCarry (.mem (eaIndirectY b s)) s)

/-- `E9` SBC Immediate (R132, R104). -/
def execSbcImm (b : Byte) (s : State) : Result := .next (subtractWithBorrow (.imm b) s)

/-- `E5` SBC Zero Page (R132, R105). -/
def execSbcZp (b : Byte) (s : State) : Result := .next (subtractWithBorrow (.mem (eaZeroPage b)) s)

/-- `F5` SBC Zero Page,X (R132, R106). -/
def execSbcZpX (b : Byte) (s : State) : Result := .next (subtractWithBorrow (.mem (eaZeroPageX b s)) s)

/-- `ED` SBC Absolute (R132, R108). -/
def execSbcAbs (w : Word) (s : State) : Result := .next (subtractWithBorrow (.mem (eaAbsolute w)) s)

/-- `FD` SBC Absolute,X (R132, R109). -/
def execSbcAbsX (w : Word) (s : State) : Result := .next (subtractWithBorrow (.mem (eaAbsoluteX w s)) s)

/-- `F9` SBC Absolute,Y (R132, R109). -/
def execSbcAbsY (w : Word) (s : State) : Result := .next (subtractWithBorrow (.mem (eaAbsoluteY w s)) s)

/-- `E1` SBC (Indirect,X) (R132, R110). -/
def execSbcIndX (b : Byte) (s : State) : Result := .next (subtractWithBorrow (.mem (eaIndirectX b s)) s)

/-- `F1` SBC (Indirect),Y (R132, R111). -/
def execSbcIndY (b : Byte) (s : State) : Result := .next (subtractWithBorrow (.mem (eaIndirectY b s)) s)

end Sys2Proof.Machine
end

