-- ==== Sys2Proof/Machine/Compare.lean ====
section
/-! DEFINITION. CMP, CPX and CPY over the comparator of R160 (`44_compare.md`). -/

namespace Sys2Proof.Machine

/-- CMP (R161). -/
def compareA (src : Source) (s : State) : State := compare s.a (src.read s) s

/-- CPX (R162). -/
def compareX (src : Source) (s : State) : State := compare s.x (src.read s) s

/-- CPY (R163). -/
def compareY (src : Source) (s : State) : State := compare s.y (src.read s) s

/-- `C9` CMP Immediate (R161, R104). -/
def execCmpImm (b : Byte) (s : State) : Result := .next (compareA (.imm b) s)

/-- `C5` CMP Zero Page (R161, R105). -/
def execCmpZp (b : Byte) (s : State) : Result := .next (compareA (.mem (eaZeroPage b)) s)

/-- `D5` CMP Zero Page,X (R161, R106). -/
def execCmpZpX (b : Byte) (s : State) : Result := .next (compareA (.mem (eaZeroPageX b s)) s)

/-- `CD` CMP Absolute (R161, R108). -/
def execCmpAbs (w : Word) (s : State) : Result := .next (compareA (.mem (eaAbsolute w)) s)

/-- `DD` CMP Absolute,X (R161, R109). -/
def execCmpAbsX (w : Word) (s : State) : Result := .next (compareA (.mem (eaAbsoluteX w s)) s)

/-- `D9` CMP Absolute,Y (R161, R109). -/
def execCmpAbsY (w : Word) (s : State) : Result := .next (compareA (.mem (eaAbsoluteY w s)) s)

/-- `C1` CMP (Indirect,X) (R161, R110). -/
def execCmpIndX (b : Byte) (s : State) : Result := .next (compareA (.mem (eaIndirectX b s)) s)

/-- `D1` CMP (Indirect),Y (R161, R111). -/
def execCmpIndY (b : Byte) (s : State) : Result := .next (compareA (.mem (eaIndirectY b s)) s)

/-- `E0` CPX Immediate (R162, R104). -/
def execCpxImm (b : Byte) (s : State) : Result := .next (compareX (.imm b) s)

/-- `E4` CPX Zero Page (R162, R105). -/
def execCpxZp (b : Byte) (s : State) : Result := .next (compareX (.mem (eaZeroPage b)) s)

/-- `EC` CPX Absolute (R162, R108). -/
def execCpxAbs (w : Word) (s : State) : Result := .next (compareX (.mem (eaAbsolute w)) s)

/-- `C0` CPY Immediate (R163, R104). -/
def execCpyImm (b : Byte) (s : State) : Result := .next (compareY (.imm b) s)

/-- `C4` CPY Zero Page (R163, R105). -/
def execCpyZp (b : Byte) (s : State) : Result := .next (compareY (.mem (eaZeroPage b)) s)

/-- `CC` CPY Absolute (R163, R108). -/
def execCpyAbs (w : Word) (s : State) : Result := .next (compareY (.mem (eaAbsolute w)) s)

end Sys2Proof.Machine
end

