-- ==== Sys2Proof/Machine/ControlTransfer.lean ====
section
/-! DEFINITION. Conditional branches, jumps and subroutine linkage (`47_control_transfer.md`). None writes a flag. They
run with PC past the instruction (`40_fetch_addressing.md` R101; log entry 6). -/

namespace Sys2Proof.Machine

/-- `Branch(cond)` (R200): the taken branch writes the target of R114 to PC. -/
def branch (cond : Bool) (b : Byte) (s : State) : State :=
  if cond then s.setPC (relativeTarget b s) else s

/-- The target JMP indirect reads through its pointer (R210): the high byte comes from the start of the same page when
the pointer's low byte is 0xFF. -/
def indirectTarget (ptr : Word) (s : State) : Word :=
  if ptr &&& 0x00FF = 0x00FF then s.readWord ptr (ptr &&& 0xFF00) else s.readWord ptr (ptr + 1)

/-- JSR (R211): pushes the return address less 1, high byte first, then jumps to the operand word. -/
def jumpToSubroutine (w : Word) (s : State) : State :=
  let ret := s.pc - 1
  ((s.push (hiByte ret)).push (loByte ret)).setPC w

/-- RTS (R212): pulls the low byte, then the high byte; PC is the pulled word plus 1. -/
def returnFromSubroutine (s : State) : State :=
  let lo := s.pull
  let hi := lo.2.pull
  hi.2.setPC (wordOf hi.1 lo.1 + 1)

/-- `90` BCC Relative (R201, R114). -/
def execBcc (b : Byte) (s : State) : Result := .next (branch (!s.flag .c) b s)

/-- `B0` BCS Relative (R202, R114). -/
def execBcs (b : Byte) (s : State) : Result := .next (branch (s.flag .c) b s)

/-- `F0` BEQ Relative (R203, R114). -/
def execBeq (b : Byte) (s : State) : Result := .next (branch (s.flag .z) b s)

/-- `D0` BNE Relative (R204, R114). -/
def execBne (b : Byte) (s : State) : Result := .next (branch (!s.flag .z) b s)

/-- `30` BMI Relative (R205, R114). -/
def execBmi (b : Byte) (s : State) : Result := .next (branch (s.flag .n) b s)

/-- `10` BPL Relative (R206, R114). -/
def execBpl (b : Byte) (s : State) : Result := .next (branch (!s.flag .n) b s)

/-- `50` BVC Relative (R207, R114). -/
def execBvc (b : Byte) (s : State) : Result := .next (branch (!s.flag .v) b s)

/-- `70` BVS Relative (R208, R114). -/
def execBvs (b : Byte) (s : State) : Result := .next (branch (s.flag .v) b s)

/-- `4C` JMP Absolute (R209, R108). -/
def execJmpAbs (w : Word) (s : State) : Result := .next (s.setPC w)

/-- `6C` JMP Indirect (R210, R115). -/
def execJmpInd (w : Word) (s : State) : Result := .next (s.setPC (indirectTarget w s))

/-- `20` JSR Absolute (R211, R108). -/
def execJsr (w : Word) (s : State) : Result := .next (jumpToSubroutine w s)

/-- `60` RTS Implied (R212, R113). -/
def execRts (s : State) : Result := .next (returnFromSubroutine s)

end Sys2Proof.Machine
end

