-- ==== Sys2Proof/Machine/IncDec.lean ====
section
/-! DEFINITION. INC, DEC, INX, INY, DEX and DEY: mod 256, Z and N only (`45_incdec.md`). -/

namespace Sys2Proof.Machine

/-- INC (R170): reads the byte at `ea` once and writes it once. -/
def incrementMem (ea : Word) (s : State) : State :=
  let r := s.readMem ea + 1
  (s.writeMem ea r).setZN r

/-- DEC (R171): reads the byte at `ea` once and writes it once. -/
def decrementMem (ea : Word) (s : State) : State :=
  let r := s.readMem ea - 1
  (s.writeMem ea r).setZN r

/-- `E6` INC Zero Page (R170, R105). -/
def execIncZp (b : Byte) (s : State) : Result := .next (incrementMem (eaZeroPage b) s)

/-- `F6` INC Zero Page,X (R170, R106). -/
def execIncZpX (b : Byte) (s : State) : Result := .next (incrementMem (eaZeroPageX b s) s)

/-- `EE` INC Absolute (R170, R108). -/
def execIncAbs (w : Word) (s : State) : Result := .next (incrementMem (eaAbsolute w) s)

/-- `FE` INC Absolute,X (R170, R109). -/
def execIncAbsX (w : Word) (s : State) : Result := .next (incrementMem (eaAbsoluteX w s) s)

/-- `C6` DEC Zero Page (R171, R105). -/
def execDecZp (b : Byte) (s : State) : Result := .next (decrementMem (eaZeroPage b) s)

/-- `D6` DEC Zero Page,X (R171, R106). -/
def execDecZpX (b : Byte) (s : State) : Result := .next (decrementMem (eaZeroPageX b s) s)

/-- `CE` DEC Absolute (R171, R108). -/
def execDecAbs (w : Word) (s : State) : Result := .next (decrementMem (eaAbsolute w) s)

/-- `DE` DEC Absolute,X (R171, R109). -/
def execDecAbsX (w : Word) (s : State) : Result := .next (decrementMem (eaAbsoluteX w s) s)

/-- `E8` INX Implied (R172, R113). -/
def execInx (s : State) : Result := .next (writeXZN (s.x + 1) s)

/-- `C8` INY Implied (R173, R113). -/
def execIny (s : State) : Result := .next (writeYZN (s.y + 1) s)

/-- `CA` DEX Implied (R174, R113). -/
def execDex (s : State) : Result := .next (writeXZN (s.x - 1) s)

/-- `88` DEY Implied (R175, R113). -/
def execDey (s : State) : Result := .next (writeYZN (s.y - 1) s)

end Sys2Proof.Machine
end

