-- ==== Sys2Proof/Machine/LoadStore.lean ====
section
/-! DEFINITION. Loads, stores and register transfers (`46_load_store_transfer.md`). Loads and transfers set Z and N,
except TXS; stores write no flag. -/

namespace Sys2Proof.Machine

/-- LDA (R180). -/
def loadA (src : Source) (s : State) : State := writeAZN (src.read s) s

/-- LDX (R181). -/
def loadX (src : Source) (s : State) : State := writeXZN (src.read s) s

/-- LDY (R182). -/
def loadY (src : Source) (s : State) : State := writeYZN (src.read s) s

/-- `A9` LDA Immediate (R180, R104). -/
def execLdaImm (b : Byte) (s : State) : Result := .next (loadA (.imm b) s)

/-- `A5` LDA Zero Page (R180, R105). -/
def execLdaZp (b : Byte) (s : State) : Result := .next (loadA (.mem (eaZeroPage b)) s)

/-- `B5` LDA Zero Page,X (R180, R106). -/
def execLdaZpX (b : Byte) (s : State) : Result := .next (loadA (.mem (eaZeroPageX b s)) s)

/-- `AD` LDA Absolute (R180, R108). -/
def execLdaAbs (w : Word) (s : State) : Result := .next (loadA (.mem (eaAbsolute w)) s)

/-- `BD` LDA Absolute,X (R180, R109). -/
def execLdaAbsX (w : Word) (s : State) : Result := .next (loadA (.mem (eaAbsoluteX w s)) s)

/-- `B9` LDA Absolute,Y (R180, R109). -/
def execLdaAbsY (w : Word) (s : State) : Result := .next (loadA (.mem (eaAbsoluteY w s)) s)

/-- `A1` LDA (Indirect,X) (R180, R110). -/
def execLdaIndX (b : Byte) (s : State) : Result := .next (loadA (.mem (eaIndirectX b s)) s)

/-- `B1` LDA (Indirect),Y (R180, R111). -/
def execLdaIndY (b : Byte) (s : State) : Result := .next (loadA (.mem (eaIndirectY b s)) s)

/-- `A2` LDX Immediate (R181, R104). -/
def execLdxImm (b : Byte) (s : State) : Result := .next (loadX (.imm b) s)

/-- `A6` LDX Zero Page (R181, R105). -/
def execLdxZp (b : Byte) (s : State) : Result := .next (loadX (.mem (eaZeroPage b)) s)

/-- `B6` LDX Zero Page,Y (R181, R107). -/
def execLdxZpY (b : Byte) (s : State) : Result := .next (loadX (.mem (eaZeroPageY b s)) s)

/-- `AE` LDX Absolute (R181, R108). -/
def execLdxAbs (w : Word) (s : State) : Result := .next (loadX (.mem (eaAbsolute w)) s)

/-- `BE` LDX Absolute,Y (R181, R109). -/
def execLdxAbsY (w : Word) (s : State) : Result := .next (loadX (.mem (eaAbsoluteY w s)) s)

/-- `A0` LDY Immediate (R182, R104). -/
def execLdyImm (b : Byte) (s : State) : Result := .next (loadY (.imm b) s)

/-- `A4` LDY Zero Page (R182, R105). -/
def execLdyZp (b : Byte) (s : State) : Result := .next (loadY (.mem (eaZeroPage b)) s)

/-- `B4` LDY Zero Page,X (R182, R106). -/
def execLdyZpX (b : Byte) (s : State) : Result := .next (loadY (.mem (eaZeroPageX b s)) s)

/-- `AC` LDY Absolute (R182, R108). -/
def execLdyAbs (w : Word) (s : State) : Result := .next (loadY (.mem (eaAbsolute w)) s)

/-- `BC` LDY Absolute,X (R182, R109). -/
def execLdyAbsX (w : Word) (s : State) : Result := .next (loadY (.mem (eaAbsoluteX w s)) s)

/-- `85` STA Zero Page (R183, R105). -/
def execStaZp (b : Byte) (s : State) : Result := .next (s.writeMem (eaZeroPage b) s.a)

/-- `95` STA Zero Page,X (R183, R106). -/
def execStaZpX (b : Byte) (s : State) : Result := .next (s.writeMem (eaZeroPageX b s) s.a)

/-- `8D` STA Absolute (R183, R108). -/
def execStaAbs (w : Word) (s : State) : Result := .next (s.writeMem (eaAbsolute w) s.a)

/-- `9D` STA Absolute,X (R183, R109). -/
def execStaAbsX (w : Word) (s : State) : Result := .next (s.writeMem (eaAbsoluteX w s) s.a)

/-- `99` STA Absolute,Y (R183, R109). -/
def execStaAbsY (w : Word) (s : State) : Result := .next (s.writeMem (eaAbsoluteY w s) s.a)

/-- `81` STA (Indirect,X) (R183, R110). -/
def execStaIndX (b : Byte) (s : State) : Result := .next (s.writeMem (eaIndirectX b s) s.a)

/-- `91` STA (Indirect),Y (R183, R111). -/
def execStaIndY (b : Byte) (s : State) : Result := .next (s.writeMem (eaIndirectY b s) s.a)

/-- `86` STX Zero Page (R184, R105). -/
def execStxZp (b : Byte) (s : State) : Result := .next (s.writeMem (eaZeroPage b) s.x)

/-- `96` STX Zero Page,Y (R184, R107). -/
def execStxZpY (b : Byte) (s : State) : Result := .next (s.writeMem (eaZeroPageY b s) s.x)

/-- `8E` STX Absolute (R184, R108). -/
def execStxAbs (w : Word) (s : State) : Result := .next (s.writeMem (eaAbsolute w) s.x)

/-- `84` STY Zero Page (R185, R105). -/
def execStyZp (b : Byte) (s : State) : Result := .next (s.writeMem (eaZeroPage b) s.y)

/-- `94` STY Zero Page,X (R185, R106). -/
def execStyZpX (b : Byte) (s : State) : Result := .next (s.writeMem (eaZeroPageX b s) s.y)

/-- `8C` STY Absolute (R185, R108). -/
def execStyAbs (w : Word) (s : State) : Result := .next (s.writeMem (eaAbsolute w) s.y)

/-- `AA` TAX Implied (R186, R113). -/
def execTax (s : State) : Result := .next (writeXZN s.a s)

/-- `A8` TAY Implied (R187, R113). -/
def execTay (s : State) : Result := .next (writeYZN s.a s)

/-- `8A` TXA Implied (R188, R113). -/
def execTxa (s : State) : Result := .next (writeAZN s.x s)

/-- `98` TYA Implied (R189, R113). -/
def execTya (s : State) : Result := .next (writeAZN s.y s)

/-- `BA` TSX Implied (R190, R113). -/
def execTsx (s : State) : Result := .next (writeXZN s.sp s)

/-- `9A` TXS Implied (R191, R113). -/
def execTxs (s : State) : Result := .next (s.setSP s.x)

end Sys2Proof.Machine
end

