-- ==== Sys2Proof/Machine/Logical.lean ====
section
/-! DEFINITION. AND, ORA, EOR and BIT (`42_logical.md`). -/

namespace Sys2Proof.Machine

/-- AND (R140). -/
def andWithA (src : Source) (s : State) : State := writeAZN (s.a &&& src.read s) s

/-- ORA (R141). -/
def orWithA (src : Source) (s : State) : State := writeAZN (s.a ||| src.read s) s

/-- EOR (R142). -/
def xorWithA (src : Source) (s : State) : State := writeAZN (s.a ^^^ src.read s) s

/-- BIT (R143): Z from `A & M`; N and V copied from bits 7 and 6 of M; A unchanged. -/
def testBits (src : Source) (s : State) : State :=
  let m := src.read s
  ((s.setFlag .z (s.a &&& m == 0)).setFlag .n (m.getLsbD 7)).setFlag .v (m.getLsbD 6)

/-- `29` AND Immediate (R140, R104). -/
def execAndImm (b : Byte) (s : State) : Result := .next (andWithA (.imm b) s)

/-- `25` AND Zero Page (R140, R105). -/
def execAndZp (b : Byte) (s : State) : Result := .next (andWithA (.mem (eaZeroPage b)) s)

/-- `35` AND Zero Page,X (R140, R106). -/
def execAndZpX (b : Byte) (s : State) : Result := .next (andWithA (.mem (eaZeroPageX b s)) s)

/-- `2D` AND Absolute (R140, R108). -/
def execAndAbs (w : Word) (s : State) : Result := .next (andWithA (.mem (eaAbsolute w)) s)

/-- `3D` AND Absolute,X (R140, R109). -/
def execAndAbsX (w : Word) (s : State) : Result := .next (andWithA (.mem (eaAbsoluteX w s)) s)

/-- `39` AND Absolute,Y (R140, R109). -/
def execAndAbsY (w : Word) (s : State) : Result := .next (andWithA (.mem (eaAbsoluteY w s)) s)

/-- `21` AND (Indirect,X) (R140, R110). -/
def execAndIndX (b : Byte) (s : State) : Result := .next (andWithA (.mem (eaIndirectX b s)) s)

/-- `31` AND (Indirect),Y (R140, R111). -/
def execAndIndY (b : Byte) (s : State) : Result := .next (andWithA (.mem (eaIndirectY b s)) s)

/-- `09` ORA Immediate (R141, R104). -/
def execOraImm (b : Byte) (s : State) : Result := .next (orWithA (.imm b) s)

/-- `05` ORA Zero Page (R141, R105). -/
def execOraZp (b : Byte) (s : State) : Result := .next (orWithA (.mem (eaZeroPage b)) s)

/-- `15` ORA Zero Page,X (R141, R106). -/
def execOraZpX (b : Byte) (s : State) : Result := .next (orWithA (.mem (eaZeroPageX b s)) s)

/-- `0D` ORA Absolute (R141, R108). -/
def execOraAbs (w : Word) (s : State) : Result := .next (orWithA (.mem (eaAbsolute w)) s)

/-- `1D` ORA Absolute,X (R141, R109). -/
def execOraAbsX (w : Word) (s : State) : Result := .next (orWithA (.mem (eaAbsoluteX w s)) s)

/-- `19` ORA Absolute,Y (R141, R109). -/
def execOraAbsY (w : Word) (s : State) : Result := .next (orWithA (.mem (eaAbsoluteY w s)) s)

/-- `01` ORA (Indirect,X) (R141, R110). -/
def execOraIndX (b : Byte) (s : State) : Result := .next (orWithA (.mem (eaIndirectX b s)) s)

/-- `11` ORA (Indirect),Y (R141, R111). -/
def execOraIndY (b : Byte) (s : State) : Result := .next (orWithA (.mem (eaIndirectY b s)) s)

/-- `49` EOR Immediate (R142, R104). -/
def execEorImm (b : Byte) (s : State) : Result := .next (xorWithA (.imm b) s)

/-- `45` EOR Zero Page (R142, R105). -/
def execEorZp (b : Byte) (s : State) : Result := .next (xorWithA (.mem (eaZeroPage b)) s)

/-- `55` EOR Zero Page,X (R142, R106). -/
def execEorZpX (b : Byte) (s : State) : Result := .next (xorWithA (.mem (eaZeroPageX b s)) s)

/-- `4D` EOR Absolute (R142, R108). -/
def execEorAbs (w : Word) (s : State) : Result := .next (xorWithA (.mem (eaAbsolute w)) s)

/-- `5D` EOR Absolute,X (R142, R109). -/
def execEorAbsX (w : Word) (s : State) : Result := .next (xorWithA (.mem (eaAbsoluteX w s)) s)

/-- `59` EOR Absolute,Y (R142, R109). -/
def execEorAbsY (w : Word) (s : State) : Result := .next (xorWithA (.mem (eaAbsoluteY w s)) s)

/-- `41` EOR (Indirect,X) (R142, R110). -/
def execEorIndX (b : Byte) (s : State) : Result := .next (xorWithA (.mem (eaIndirectX b s)) s)

/-- `51` EOR (Indirect),Y (R142, R111). -/
def execEorIndY (b : Byte) (s : State) : Result := .next (xorWithA (.mem (eaIndirectY b s)) s)

/-- `24` BIT Zero Page (R143, R105). -/
def execBitZp (b : Byte) (s : State) : Result := .next (testBits (.mem (eaZeroPage b)) s)

/-- `2C` BIT Absolute (R143, R108). -/
def execBitAbs (w : Word) (s : State) : Result := .next (testBits (.mem (eaAbsolute w)) s)

end Sys2Proof.Machine
end

