-- ==== Sys2Proof/Machine/ShiftRotate.lean ====
section
/-! DEFINITION. ASL, LSR, ROL and ROR, on A or on a memory byte (`43_shift_rotate.md`). -/

namespace Sys2Proof.Machine

/-- The order of R150 to R153: the carry, then the result to its place, then Z and N. -/
def writeShifted (pl : Place) (out : ShiftOut) (s : State) : State :=
  (pl.write out.r (s.setFlag .c out.cout)).setZN out.r

/-- ASL (R150): bit 0 of the result is 0. -/
def shiftLeft (pl : Place) (s : State) : State := writeShifted pl (shiftLeftCore (pl.read s) false) s

/-- LSR (R151): bit 7 of the result is 0. -/
def shiftRight (pl : Place) (s : State) : State := writeShifted pl (shiftRightCore (pl.read s) false) s

/-- ROL (R152): the previous carry goes to bit 0. -/
def rotateLeft (pl : Place) (s : State) : State := writeShifted pl (shiftLeftCore (pl.read s) (s.flag .c)) s

/-- ROR (R153): the previous carry goes to bit 7. -/
def rotateRight (pl : Place) (s : State) : State := writeShifted pl (shiftRightCore (pl.read s) (s.flag .c)) s

/-- `06` ASL Zero Page (R150, R105). -/
def execAslZp (b : Byte) (s : State) : Result := .next (shiftLeft (.mem (eaZeroPage b)) s)

/-- `16` ASL Zero Page,X (R150, R106). -/
def execAslZpX (b : Byte) (s : State) : Result := .next (shiftLeft (.mem (eaZeroPageX b s)) s)

/-- `0E` ASL Absolute (R150, R108). -/
def execAslAbs (w : Word) (s : State) : Result := .next (shiftLeft (.mem (eaAbsolute w)) s)

/-- `1E` ASL Absolute,X (R150, R109). -/
def execAslAbsX (w : Word) (s : State) : Result := .next (shiftLeft (.mem (eaAbsoluteX w s)) s)

/-- `0A` ASL Accumulator (R150, R112). -/
def execAslAcc (s : State) : Result := .next (shiftLeft .acc s)

/-- `46` LSR Zero Page (R151, R105). -/
def execLsrZp (b : Byte) (s : State) : Result := .next (shiftRight (.mem (eaZeroPage b)) s)

/-- `56` LSR Zero Page,X (R151, R106). -/
def execLsrZpX (b : Byte) (s : State) : Result := .next (shiftRight (.mem (eaZeroPageX b s)) s)

/-- `4E` LSR Absolute (R151, R108). -/
def execLsrAbs (w : Word) (s : State) : Result := .next (shiftRight (.mem (eaAbsolute w)) s)

/-- `5E` LSR Absolute,X (R151, R109). -/
def execLsrAbsX (w : Word) (s : State) : Result := .next (shiftRight (.mem (eaAbsoluteX w s)) s)

/-- `4A` LSR Accumulator (R151, R112). -/
def execLsrAcc (s : State) : Result := .next (shiftRight .acc s)

/-- `26` ROL Zero Page (R152, R105). -/
def execRolZp (b : Byte) (s : State) : Result := .next (rotateLeft (.mem (eaZeroPage b)) s)

/-- `36` ROL Zero Page,X (R152, R106). -/
def execRolZpX (b : Byte) (s : State) : Result := .next (rotateLeft (.mem (eaZeroPageX b s)) s)

/-- `2E` ROL Absolute (R152, R108). -/
def execRolAbs (w : Word) (s : State) : Result := .next (rotateLeft (.mem (eaAbsolute w)) s)

/-- `3E` ROL Absolute,X (R152, R109). -/
def execRolAbsX (w : Word) (s : State) : Result := .next (rotateLeft (.mem (eaAbsoluteX w s)) s)

/-- `2A` ROL Accumulator (R152, R112). -/
def execRolAcc (s : State) : Result := .next (rotateLeft .acc s)

/-- `66` ROR Zero Page (R153, R105). -/
def execRorZp (b : Byte) (s : State) : Result := .next (rotateRight (.mem (eaZeroPage b)) s)

/-- `76` ROR Zero Page,X (R153, R106). -/
def execRorZpX (b : Byte) (s : State) : Result := .next (rotateRight (.mem (eaZeroPageX b s)) s)

/-- `6E` ROR Absolute (R153, R108). -/
def execRorAbs (w : Word) (s : State) : Result := .next (rotateRight (.mem (eaAbsolute w)) s)

/-- `7E` ROR Absolute,X (R153, R109). -/
def execRorAbsX (w : Word) (s : State) : Result := .next (rotateRight (.mem (eaAbsoluteX w s)) s)

/-- `6A` ROR Accumulator (R153, R112). -/
def execRorAcc (s : State) : Result := .next (rotateRight .acc s)

end Sys2Proof.Machine
end

