-- ==== Sys2Proof/Machine/StackFlag.lean ====
section
/-! DEFINITION. Stack and flag instructions (`48_stack_flag.md`). -/

namespace Sys2Proof.Machine

/-- PLA (R221): `A <- Pull(); SetZN(A)`. -/
def pullA (s : State) : State :=
  writeAZN s.pull.1 s.pull.2

/-- PLP (R223): every flag but B from the pulled byte. -/
def pullStatus (s : State) : State :=
  s.pull.2.setStatus (pulledStatus s.pull.1)

/-- `48` PHA Implied (R220, R113). -/
def execPha (s : State) : Result := .next (s.push s.a)

/-- `68` PLA Implied (R221, R113). -/
def execPla (s : State) : Result := .next (pullA s)

/-- `08` PHP Implied (R222, R113). -/
def execPhp (s : State) : Result := .next (s.push (pushedStatus s))

/-- `28` PLP Implied (R223, R113). -/
def execPlp (s : State) : Result := .next (pullStatus s)

/-- `38` SEC Implied (R224, R113). -/
def execSec (s : State) : Result := .next (s.setFlag .c true)

/-- `18` CLC Implied (R225, R113). -/
def execClc (s : State) : Result := .next (s.setFlag .c false)

/-- `F8` SED Implied (R226, R113). -/
def execSed (s : State) : Result := .next (s.setFlag .d true)

/-- `D8` CLD Implied (R227, R113). -/
def execCld (s : State) : Result := .next (s.setFlag .d false)

/-- `78` SEI Implied (R228, R113). -/
def execSei (s : State) : Result := .next (s.setFlag .i true)

/-- `58` CLI Implied (R229, R113). -/
def execCli (s : State) : Result := .next (s.setFlag .i false)

/-- `B8` CLV Implied (R230, R113). -/
def execClv (s : State) : Result := .next (s.setFlag .v false)

end Sys2Proof.Machine
end

