-- ==== Sys2Proof/Machine/System.lean ====
section
/-! DEFINITION. BRK, RTI and NOP (`49_system.md`) over the shared entry and return of `Machine/Ops.lean`. -/

namespace Sys2Proof.Machine

/-- `00` BRK Implied (R240, R113). -/
def execBrk (s : State) : Result := .next (takeBreak Config.brkMode s)

/-- `40` RTI Implied (R241, R113). -/
def execRti (s : State) : Result := .next (returnFromInterrupt s)

/-- `EA` NOP Implied (R242, R113): nothing; PC is already past the opcode. -/
def execNop (s : State) : Result := .next s

end Sys2Proof.Machine
end

