-- ==== Sys2Proof/Machine/Fetch.lean ====
section
/-! DEFINITION. Fetching one instruction (`40_fetch_addressing.md` R100, R101). -/

namespace Sys2Proof.Machine

/-- `Fetch8()` (R101): the byte at PC; PC advances by one, mod 65536. -/
def fetch8 (s : State) : Byte × State := (s.readMem s.pc, s.setPC (s.pc + 1))

/-- `Fetch16()` (R101): two bytes, little-endian. -/
def fetch16 (s : State) : Word × State :=
  let lo := fetch8 s
  let hi := fetch8 lo.2
  (wordOf hi.1 lo.1, hi.2)

/-- The fetch and decode of a step (R100): the instruction at PC and the state with PC past it; or, for an unassigned
opcode byte, that byte and the state with PC past it alone. -/
def fetchInstr (s : State) : Except (Byte × State) (Instr × State) :=
  let op := fetch8 s
  match opcodeForm op.1 with
  | none => .error op
  | some (.i1 i) => .ok (i, op.2)
  | some (.b2 k) =>
    let b := fetch8 op.2
    .ok (k b.1, b.2)
  | some (.w3 k) =>
    let w := fetch16 op.2
    .ok (k w.1, w.2)

/-- Stores bytes at consecutive addresses, mod 65536, in a state. -/
def storeBytes : List Byte → Word → State → State
  | [], _, s => s
  | v :: vs, addr, s => storeBytes vs (addr + 1) (s.writeMem addr v)

end Sys2Proof.Machine
end

