-- ==== Sys2Proof/Machine/Step.lean ====
section
/-! DEFINITION. One Step (`40_fetch_addressing.md` R100): fetch, decode, execute; a next state or
`UnimplementedOpcode` (`60_exceptions.md` R260). -/

namespace Sys2Proof.Machine

/-- `Step()` (R100). -/
def step (s : State) : Host.Outcome State Fault Refusal :=
  match fetchInstr s with
  | .ok (i, s1) => exec i s1
  | .error (op, s1) => .fault (.unimplementedOpcode op s1)

/-- `s` with the instruction whose bits are `w` stored at PC, where the next step fetches it (log entry 7). -/
def State.withFetchWord (s : State) (nbits w : Nat) : State := storeBytes (tableBytes nbits w) s.pc s

end Sys2Proof.Machine
end

