-- ==== Sys2Proof/Machine/HostPort.lean ====
section
/-! DEFINITION. What the host may do between steps (`10_state.md` R39; `70_reset_and_hazards.md` R290 to R293;
`60_exceptions.md` R262, R271; `92_eei_decisions.md` D1, D16): a Reset request, a Step request, and reads and writes of
every register and memory byte. `step` itself never does any of it (log entry 12). -/

namespace Sys2Proof.Machine

/-- A host action that changes the state between steps (R39). A value is any number: the core keeps it mod the width of
the register (R39), an address mod 65536 (R51, R52). -/
inductive HostAction where
  | reset
  | writeA (v : Nat)
  | writeX (v : Nat)
  | writeY (v : Nat)
  | writeSP (v : Nat)
  | writePC (v : Nat)
  | writeP (v : Nat)
  | writeByte (addr v : Nat)
  | push (v : Nat)
  | pull
  deriving DecidableEq, Repr

/-- The host's `read(address)`: "the byte at `address mod 65536`" (R51). -/
def hostRead (s : State) (addr : Nat) : Byte := s.readMem (BitVec.ofNat 16 addr)

/-- The host's `write(address, value)`: "stores `value mod 256` at `address mod 65536`" (R52). -/
def hostWrite (s : State) (addr v : Nat) : State := s.writeMem (BitVec.ofNat 16 addr) (BitVec.ofNat 8 v)

/-- The host's `pull()`: the byte it returns (R37, R39). -/
def hostPulled (s : State) : Byte := s.pull.1

/-- The state after a host action (R39). A write of P stores bit 5 as 1 and every other bit as written (R31, D11); Push
and Pull change no flag. -/
def hostAct : HostAction → State → State
  | .reset, s => performReset s
  | .writeA v, s => s.setA (BitVec.ofNat 8 v)
  | .writeX v, s => s.setX (BitVec.ofNat 8 v)
  | .writeY v, s => s.setY (BitVec.ofNat 8 v)
  | .writeSP v, s => s.setSP (BitVec.ofNat 8 v)
  | .writePC v, s => s.setPC (BitVec.ofNat 16 v)
  | .writeP v, s => s.setStatus (BitVec.ofNat 8 v)
  | .writeByte addr v, s => hostWrite s addr v
  | .push v, s => s.push (BitVec.ofNat 8 v)
  | .pull, s => s.pull.2

/-- What the host asks of the core while the core is idle (D1). -/
inductive Request where
  | act (h : HostAction)
  | step
  deriving DecidableEq, Repr

/-- The answer to a request (D1, D24): done, or the fault with its opcode; or a refusal of the model, which no
instruction gives. -/
inductive Answer where
  | ok
  | unimplementedOpcode (op : Byte)
  | noMeaning (r : Refusal)
  deriving DecidableEq, Repr

/-- One request: the answer and the state the core is left in. After a fault that state is the one of R260, from which
"a driver may call Step again" (R262). -/
def serve (r : Request) (s : State) : Answer × State :=
  match r with
  | .act h => (.ok, hostAct h s)
  | .step =>
    match step s with
    | .next s' => (.ok, s')
    | .fault (.unimplementedOpcode op after) => (.unimplementedOpcode op, after)
    | .refused r => (.noMeaning r, s)

/-- The state after a sequence of requests, served in order, each on the state the one before left (`20_memory.md`
R60). -/
def serveAll : List Request → State → State
  | [], s => s
  | r :: rs, s => serveAll rs (serve r s).2

end Sys2Proof.Machine
end

