-- ==== Sys2Proof/Safety.lean ====
section
/-! DEFINITION. What claims are stated in terms of: the invariant of the state, the addresses an instruction stores
to, a step that completes, and a run that meets no fault (`70_reset_and_hazards.md` R297). -/

namespace Sys2Proof.Machine

/-- The invariant of the state: memory is in canonical form (log entry 9) and the hardwired bit of P is stored as 1
(`10_state.md` R31). -/
def State.Inv (s : State) : Prop := Memory.wf s.mem = true ∧ s.p.getLsbD 5 = true

/-- The opcode byte the next step fetches (`40_fetch_addressing.md` R100). -/
def State.nextOpcode (s : State) : Byte := s.readMem s.pc

/-- The three bytes from PC on, mod 65536: all the bytes an instruction at PC can have. -/
def State.window (s : State) : List Byte := [s.readMem s.pc, s.readMem (s.pc + 1), s.readMem (s.pc + 2)]

/-- The addresses an instruction stores to, from the state it runs in. -/
def storedAt (i : Instr) (s : State) : List Word :=
  match i with
  | .staZp b | .stxZp b | .styZp b | .aslZp b | .lsrZp b | .rolZp b | .rorZp b | .incZp b | .decZp b => [eaZeroPage b]
  | .staZpX b | .styZpX b | .aslZpX b | .lsrZpX b | .rolZpX b | .rorZpX b | .incZpX b | .decZpX b => [eaZeroPageX b s]
  | .stxZpY b => [eaZeroPageY b s]
  | .staAbs w | .stxAbs w | .styAbs w | .aslAbs w | .lsrAbs w | .rolAbs w | .rorAbs w | .incAbs w
  | .decAbs w => [eaAbsolute w]
  | .staAbsX w | .aslAbsX w | .lsrAbsX w | .rolAbsX w | .rorAbsX w | .incAbsX w | .decAbsX w => [eaAbsoluteX w s]
  | .staAbsY w => [eaAbsoluteY w s]
  | .staIndX b => [eaIndirectX b s]
  | .staIndY b => [eaIndirectY b s]
  | .pha | .php => [stackAddr s.sp]
  | .jsr _ => [stackAddr s.sp, stackAddr (s.sp - 1)]
  | .brk =>
    match Config.brkMode with
    | .vectorOnly => []
    | .pushFrame => [stackAddr s.sp, stackAddr (s.sp - 1), stackAddr (s.sp - 2)]
  | _ => []

/-- The step completes: it answers a next state. -/
def StepCompletes (s : State) : Prop := ∃ t, step s = .next t

/-- The step faults. -/
def StepFaults (s : State) : Prop := ∃ r, step s = .fault r

/-- `n` steps from `s` all complete. A run has no terminal state of its own (R297); the number of steps is the claim's
stop condition (`STOP`, D29). -/
def RunsSafely : Nat → State → Prop
  | 0, _ => True
  | n + 1, s => ∃ t, step s = .next t ∧ RunsSafely n t

end Sys2Proof.Machine
end

