-- ==== Sys2Proof/Certificates/Slice0/Obligations.lean ====
section
/-! DEFINITION. The statements for the provers. First the vocabulary they are written in: what of the state an
instruction leaves unchanged (its frame), and the forms each mnemonic has by `30_encoding.md` R85, with their bytes and
their operands. Then one definition `Obligations.<Name>` for each statement. -/

namespace Sys2Proof.Claims

open Sys2Proof.Machine

/-- A part of the state that a frame speaks about. -/
inductive Part where
  | a | x | y | sp | pc | mem
  | flag (f : Flag)
  deriving DecidableEq, Repr

/-- A part is the same in both states; memory is, when every byte reads the same. -/
def Part.Kept : Part → State → State → Prop
  | .a, s, t => t.a = s.a
  | .x, s, t => t.x = s.x
  | .y, s, t => t.y = s.y
  | .sp, s, t => t.sp = s.sp
  | .pc, s, t => t.pc = s.pc
  | .mem, s, t => ∀ addr : Word, t.readMem addr = s.readMem addr
  | .flag f, s, t => t.flag f = s.flag f

/-- Every part but the listed ones is the same in both states. -/
def Frame (changed : List Part) (s t : State) : Prop := ∀ k : Part, k ∉ changed → k.Kept s t

/-- Every byte of memory but those at the listed addresses reads the same in both states. -/
def StoresOnlyAt (addrs : List Word) (s t : State) : Prop := ∀ addr : Word, addr ∉ addrs → t.readMem addr = s.readMem addr

/-- Z and N are those of an 8-bit value: Z iff it is 0, N iff its bit 7 is set (`10_state.md` R34). -/
def ZNFrom (v : Byte) (t : State) : Prop :=
  t.flag .z = decide (v.toNat = 0) ∧ t.flag .n = decide (128 ≤ v.toNat)

/-- The place holds the value afterwards, and nothing but the place and the listed flags has changed. -/
def WritesPlace (pl : Place) (v : Byte) (flags : List Part) (s t : State) : Prop :=
  match pl with
  | .acc => t.a = v ∧ Frame (.a :: flags) s t
  | .mem ea => t.readMem ea = v ∧ StoresOnlyAt [ea] s t ∧ Frame (.mem :: flags) s t

/-- A form that reads its operand: its bytes in the instruction stream, the instruction, the operand. -/
structure ReadForm where
  bytes : List Byte
  instr : Instr
  src : Source

/-- A form that reads its operand and writes it back. -/
structure RmwForm where
  bytes : List Byte
  instr : Instr
  place : Place

/-- A form that writes the byte at an effective address. -/
structure StoreForm where
  bytes : List Byte
  instr : Instr
  ea : Word

/-- A conditional branch and its condition. -/
structure BranchForm where
  bytes : List Byte
  instr : Instr
  cond : Bool

/-- A flag instruction, the flag it writes and the value. -/
structure FlagForm where
  bytes : List Byte
  instr : Instr
  flag : Flag
  on : Bool

/-- The forms of ADC (R131): their bytes, their instructions, their operands. -/
def adcForms (b : Byte) (w : Word) (s : State) : List ReadForm :=
  [⟨[0x69, b], .adcImm b, .imm b⟩,
   ⟨[0x65, b], .adcZp b, .mem (eaZeroPage b)⟩,
   ⟨[0x75, b], .adcZpX b, .mem (eaZeroPageX b s)⟩,
   ⟨[0x6D, loByte w, hiByte w], .adcAbs w, .mem (eaAbsolute w)⟩,
   ⟨[0x7D, loByte w, hiByte w], .adcAbsX w, .mem (eaAbsoluteX w s)⟩,
   ⟨[0x79, loByte w, hiByte w], .adcAbsY w, .mem (eaAbsoluteY w s)⟩,
   ⟨[0x61, b], .adcIndX b, .mem (eaIndirectX b s)⟩,
   ⟨[0x71, b], .adcIndY b, .mem (eaIndirectY b s)⟩]

/-- The forms of SBC (R132): their bytes, their instructions, their operands. -/
def sbcForms (b : Byte) (w : Word) (s : State) : List ReadForm :=
  [⟨[0xE9, b], .sbcImm b, .imm b⟩,
   ⟨[0xE5, b], .sbcZp b, .mem (eaZeroPage b)⟩,
   ⟨[0xF5, b], .sbcZpX b, .mem (eaZeroPageX b s)⟩,
   ⟨[0xED, loByte w, hiByte w], .sbcAbs w, .mem (eaAbsolute w)⟩,
   ⟨[0xFD, loByte w, hiByte w], .sbcAbsX w, .mem (eaAbsoluteX w s)⟩,
   ⟨[0xF9, loByte w, hiByte w], .sbcAbsY w, .mem (eaAbsoluteY w s)⟩,
   ⟨[0xE1, b], .sbcIndX b, .mem (eaIndirectX b s)⟩,
   ⟨[0xF1, b], .sbcIndY b, .mem (eaIndirectY b s)⟩]

/-- The forms of AND (R140): their bytes, their instructions, their operands. -/
def andForms (b : Byte) (w : Word) (s : State) : List ReadForm :=
  [⟨[0x29, b], .andImm b, .imm b⟩,
   ⟨[0x25, b], .andZp b, .mem (eaZeroPage b)⟩,
   ⟨[0x35, b], .andZpX b, .mem (eaZeroPageX b s)⟩,
   ⟨[0x2D, loByte w, hiByte w], .andAbs w, .mem (eaAbsolute w)⟩,
   ⟨[0x3D, loByte w, hiByte w], .andAbsX w, .mem (eaAbsoluteX w s)⟩,
   ⟨[0x39, loByte w, hiByte w], .andAbsY w, .mem (eaAbsoluteY w s)⟩,
   ⟨[0x21, b], .andIndX b, .mem (eaIndirectX b s)⟩,
   ⟨[0x31, b], .andIndY b, .mem (eaIndirectY b s)⟩]

/-- The forms of ORA (R141): their bytes, their instructions, their operands. -/
def oraForms (b : Byte) (w : Word) (s : State) : List ReadForm :=
  [⟨[0x09, b], .oraImm b, .imm b⟩,
   ⟨[0x05, b], .oraZp b, .mem (eaZeroPage b)⟩,
   ⟨[0x15, b], .oraZpX b, .mem (eaZeroPageX b s)⟩,
   ⟨[0x0D, loByte w, hiByte w], .oraAbs w, .mem (eaAbsolute w)⟩,
   ⟨[0x1D, loByte w, hiByte w], .oraAbsX w, .mem (eaAbsoluteX w s)⟩,
   ⟨[0x19, loByte w, hiByte w], .oraAbsY w, .mem (eaAbsoluteY w s)⟩,
   ⟨[0x01, b], .oraIndX b, .mem (eaIndirectX b s)⟩,
   ⟨[0x11, b], .oraIndY b, .mem (eaIndirectY b s)⟩]

/-- The forms of EOR (R142): their bytes, their instructions, their operands. -/
def eorForms (b : Byte) (w : Word) (s : State) : List ReadForm :=
  [⟨[0x49, b], .eorImm b, .imm b⟩,
   ⟨[0x45, b], .eorZp b, .mem (eaZeroPage b)⟩,
   ⟨[0x55, b], .eorZpX b, .mem (eaZeroPageX b s)⟩,
   ⟨[0x4D, loByte w, hiByte w], .eorAbs w, .mem (eaAbsolute w)⟩,
   ⟨[0x5D, loByte w, hiByte w], .eorAbsX w, .mem (eaAbsoluteX w s)⟩,
   ⟨[0x59, loByte w, hiByte w], .eorAbsY w, .mem (eaAbsoluteY w s)⟩,
   ⟨[0x41, b], .eorIndX b, .mem (eaIndirectX b s)⟩,
   ⟨[0x51, b], .eorIndY b, .mem (eaIndirectY b s)⟩]

/-- The forms of BIT (R143): their bytes, their instructions, their operands. -/
def bitForms (b : Byte) (w : Word) : List ReadForm :=
  [⟨[0x24, b], .bitZp b, .mem (eaZeroPage b)⟩,
   ⟨[0x2C, loByte w, hiByte w], .bitAbs w, .mem (eaAbsolute w)⟩]

/-- The forms of CMP (R161): their bytes, their instructions, their operands. -/
def cmpForms (b : Byte) (w : Word) (s : State) : List ReadForm :=
  [⟨[0xC9, b], .cmpImm b, .imm b⟩,
   ⟨[0xC5, b], .cmpZp b, .mem (eaZeroPage b)⟩,
   ⟨[0xD5, b], .cmpZpX b, .mem (eaZeroPageX b s)⟩,
   ⟨[0xCD, loByte w, hiByte w], .cmpAbs w, .mem (eaAbsolute w)⟩,
   ⟨[0xDD, loByte w, hiByte w], .cmpAbsX w, .mem (eaAbsoluteX w s)⟩,
   ⟨[0xD9, loByte w, hiByte w], .cmpAbsY w, .mem (eaAbsoluteY w s)⟩,
   ⟨[0xC1, b], .cmpIndX b, .mem (eaIndirectX b s)⟩,
   ⟨[0xD1, b], .cmpIndY b, .mem (eaIndirectY b s)⟩]

/-- The forms of CPX (R162): their bytes, their instructions, their operands. -/
def cpxForms (b : Byte) (w : Word) : List ReadForm :=
  [⟨[0xE0, b], .cpxImm b, .imm b⟩,
   ⟨[0xE4, b], .cpxZp b, .mem (eaZeroPage b)⟩,
   ⟨[0xEC, loByte w, hiByte w], .cpxAbs w, .mem (eaAbsolute w)⟩]

/-- The forms of CPY (R163): their bytes, their instructions, their operands. -/
def cpyForms (b : Byte) (w : Word) : List ReadForm :=
  [⟨[0xC0, b], .cpyImm b, .imm b⟩,
   ⟨[0xC4, b], .cpyZp b, .mem (eaZeroPage b)⟩,
   ⟨[0xCC, loByte w, hiByte w], .cpyAbs w, .mem (eaAbsolute w)⟩]

/-- The forms of LDA (R180): their bytes, their instructions, their operands. -/
def ldaForms (b : Byte) (w : Word) (s : State) : List ReadForm :=
  [⟨[0xA9, b], .ldaImm b, .imm b⟩,
   ⟨[0xA5, b], .ldaZp b, .mem (eaZeroPage b)⟩,
   ⟨[0xB5, b], .ldaZpX b, .mem (eaZeroPageX b s)⟩,
   ⟨[0xAD, loByte w, hiByte w], .ldaAbs w, .mem (eaAbsolute w)⟩,
   ⟨[0xBD, loByte w, hiByte w], .ldaAbsX w, .mem (eaAbsoluteX w s)⟩,
   ⟨[0xB9, loByte w, hiByte w], .ldaAbsY w, .mem (eaAbsoluteY w s)⟩,
   ⟨[0xA1, b], .ldaIndX b, .mem (eaIndirectX b s)⟩,
   ⟨[0xB1, b], .ldaIndY b, .mem (eaIndirectY b s)⟩]

/-- The forms of LDX (R181): their bytes, their instructions, their operands. -/
def ldxForms (b : Byte) (w : Word) (s : State) : List ReadForm :=
  [⟨[0xA2, b], .ldxImm b, .imm b⟩,
   ⟨[0xA6, b], .ldxZp b, .mem (eaZeroPage b)⟩,
   ⟨[0xB6, b], .ldxZpY b, .mem (eaZeroPageY b s)⟩,
   ⟨[0xAE, loByte w, hiByte w], .ldxAbs w, .mem (eaAbsolute w)⟩,
   ⟨[0xBE, loByte w, hiByte w], .ldxAbsY w, .mem (eaAbsoluteY w s)⟩]

/-- The forms of LDY (R182): their bytes, their instructions, their operands. -/
def ldyForms (b : Byte) (w : Word) (s : State) : List ReadForm :=
  [⟨[0xA0, b], .ldyImm b, .imm b⟩,
   ⟨[0xA4, b], .ldyZp b, .mem (eaZeroPage b)⟩,
   ⟨[0xB4, b], .ldyZpX b, .mem (eaZeroPageX b s)⟩,
   ⟨[0xAC, loByte w, hiByte w], .ldyAbs w, .mem (eaAbsolute w)⟩,
   ⟨[0xBC, loByte w, hiByte w], .ldyAbsX w, .mem (eaAbsoluteX w s)⟩]

/-- The forms of ASL (R150): their bytes, their instructions, their operands. -/
def aslForms (b : Byte) (w : Word) (s : State) : List RmwForm :=
  [⟨[0x06, b], .aslZp b, .mem (eaZeroPage b)⟩,
   ⟨[0x16, b], .aslZpX b, .mem (eaZeroPageX b s)⟩,
   ⟨[0x0E, loByte w, hiByte w], .aslAbs w, .mem (eaAbsolute w)⟩,
   ⟨[0x1E, loByte w, hiByte w], .aslAbsX w, .mem (eaAbsoluteX w s)⟩,
   ⟨[0x0A], .aslAcc, .acc⟩]

/-- The forms of LSR (R151): their bytes, their instructions, their operands. -/
def lsrForms (b : Byte) (w : Word) (s : State) : List RmwForm :=
  [⟨[0x46, b], .lsrZp b, .mem (eaZeroPage b)⟩,
   ⟨[0x56, b], .lsrZpX b, .mem (eaZeroPageX b s)⟩,
   ⟨[0x4E, loByte w, hiByte w], .lsrAbs w, .mem (eaAbsolute w)⟩,
   ⟨[0x5E, loByte w, hiByte w], .lsrAbsX w, .mem (eaAbsoluteX w s)⟩,
   ⟨[0x4A], .lsrAcc, .acc⟩]

/-- The forms of ROL (R152): their bytes, their instructions, their operands. -/
def rolForms (b : Byte) (w : Word) (s : State) : List RmwForm :=
  [⟨[0x26, b], .rolZp b, .mem (eaZeroPage b)⟩,
   ⟨[0x36, b], .rolZpX b, .mem (eaZeroPageX b s)⟩,
   ⟨[0x2E, loByte w, hiByte w], .rolAbs w, .mem (eaAbsolute w)⟩,
   ⟨[0x3E, loByte w, hiByte w], .rolAbsX w, .mem (eaAbsoluteX w s)⟩,
   ⟨[0x2A], .rolAcc, .acc⟩]

/-- The forms of ROR (R153): their bytes, their instructions, their operands. -/
def rorForms (b : Byte) (w : Word) (s : State) : List RmwForm :=
  [⟨[0x66, b], .rorZp b, .mem (eaZeroPage b)⟩,
   ⟨[0x76, b], .rorZpX b, .mem (eaZeroPageX b s)⟩,
   ⟨[0x6E, loByte w, hiByte w], .rorAbs w, .mem (eaAbsolute w)⟩,
   ⟨[0x7E, loByte w, hiByte w], .rorAbsX w, .mem (eaAbsoluteX w s)⟩,
   ⟨[0x6A], .rorAcc, .acc⟩]

/-- The forms of INC (R170): their bytes, their instructions, their operands. -/
def incForms (b : Byte) (w : Word) (s : State) : List StoreForm :=
  [⟨[0xE6, b], .incZp b, eaZeroPage b⟩,
   ⟨[0xF6, b], .incZpX b, eaZeroPageX b s⟩,
   ⟨[0xEE, loByte w, hiByte w], .incAbs w, eaAbsolute w⟩,
   ⟨[0xFE, loByte w, hiByte w], .incAbsX w, eaAbsoluteX w s⟩]

/-- The forms of DEC (R171): their bytes, their instructions, their operands. -/
def decForms (b : Byte) (w : Word) (s : State) : List StoreForm :=
  [⟨[0xC6, b], .decZp b, eaZeroPage b⟩,
   ⟨[0xD6, b], .decZpX b, eaZeroPageX b s⟩,
   ⟨[0xCE, loByte w, hiByte w], .decAbs w, eaAbsolute w⟩,
   ⟨[0xDE, loByte w, hiByte w], .decAbsX w, eaAbsoluteX w s⟩]

/-- The forms of STA (R183): their bytes, their instructions, their operands. -/
def staForms (b : Byte) (w : Word) (s : State) : List StoreForm :=
  [⟨[0x85, b], .staZp b, eaZeroPage b⟩,
   ⟨[0x95, b], .staZpX b, eaZeroPageX b s⟩,
   ⟨[0x8D, loByte w, hiByte w], .staAbs w, eaAbsolute w⟩,
   ⟨[0x9D, loByte w, hiByte w], .staAbsX w, eaAbsoluteX w s⟩,
   ⟨[0x99, loByte w, hiByte w], .staAbsY w, eaAbsoluteY w s⟩,
   ⟨[0x81, b], .staIndX b, eaIndirectX b s⟩,
   ⟨[0x91, b], .staIndY b, eaIndirectY b s⟩]

/-- The forms of STX (R184): their bytes, their instructions, their operands. -/
def stxForms (b : Byte) (w : Word) (s : State) : List StoreForm :=
  [⟨[0x86, b], .stxZp b, eaZeroPage b⟩,
   ⟨[0x96, b], .stxZpY b, eaZeroPageY b s⟩,
   ⟨[0x8E, loByte w, hiByte w], .stxAbs w, eaAbsolute w⟩]

/-- The forms of STY (R185): their bytes, their instructions, their operands. -/
def styForms (b : Byte) (w : Word) (s : State) : List StoreForm :=
  [⟨[0x84, b], .styZp b, eaZeroPage b⟩,
   ⟨[0x94, b], .styZpX b, eaZeroPageX b s⟩,
   ⟨[0x8C, loByte w, hiByte w], .styAbs w, eaAbsolute w⟩]

/-- The eight conditional branches with their conditions, as the table of R200 gives them. -/
def branchForms (b : Byte) (s : State) : List BranchForm :=
  [⟨[0x10, b], .bpl b, !s.flag .n⟩,
   ⟨[0x30, b], .bmi b, s.flag .n⟩,
   ⟨[0x50, b], .bvc b, !s.flag .v⟩,
   ⟨[0x70, b], .bvs b, s.flag .v⟩,
   ⟨[0x90, b], .bcc b, !s.flag .c⟩,
   ⟨[0xB0, b], .bcs b, s.flag .c⟩,
   ⟨[0xD0, b], .bne b, !s.flag .z⟩,
   ⟨[0xF0, b], .beq b, s.flag .z⟩]

/-- The seven flag instructions: the flag each writes and the value (R224 to R230). -/
def flagForms : List FlagForm :=
  [⟨[0x38], .sec, .c, true⟩,
   ⟨[0x18], .clc, .c, false⟩,
   ⟨[0xF8], .sed, .d, true⟩,
   ⟨[0xD8], .cld, .d, false⟩,
   ⟨[0x78], .sei, .i, true⟩,
   ⟨[0x58], .cli, .i, false⟩,
   ⟨[0xB8], .clv, .v, false⟩]

/-- The instruction transfers control in this state: a branch taken, JMP, JSR, RTS, RTI or BRK (R117). -/
def transfersControl (i : Instr) (s : State) : Bool :=
  match i.mnemonic with
  | .bcc => !s.flag .c
  | .bcs => s.flag .c
  | .beq => s.flag .z
  | .bne => !s.flag .z
  | .bmi => s.flag .n
  | .bpl => !s.flag .n
  | .bvc => !s.flag .v
  | .bvs => s.flag .v
  | .jmp | .jsr | .rts | .rti | .brk => true
  | _ => false

/-- The mnemonics that write a flag, as R26 to R30, R32 and R33 list them. -/
def flagWriters : Flag → List Mnemonic
  | .c => [.adc, .sbc, .asl, .lsr, .rol, .ror, .cmp, .cpx, .cpy, .sec, .clc, .plp, .rti]
  | .z => [.adc, .sbc, .and, .ora, .eor, .asl, .lsr, .rol, .ror, .cmp, .cpx, .cpy, .inc, .dec, .inx, .iny, .dex, .dey,
      .lda, .ldx, .ldy, .tax, .tay, .txa, .tya, .tsx, .pla, .bit, .plp, .rti]
  | .i => [.sei, .cli, .brk, .plp, .rti]
  | .d => [.sed, .cld, .plp, .rti]
  | .b => [.brk, .plp, .rti]
  | .v => [.adc, .sbc, .bit, .clv, .plp, .rti]
  | .n => [.adc, .sbc, .and, .ora, .eor, .asl, .lsr, .rol, .ror, .cmp, .cpx, .cpy, .inc, .dec, .inx, .iny, .dex, .dey,
      .lda, .ldx, .ldy, .tax, .tay, .txa, .tya, .tsx, .pla, .bit, .plp, .rti]

/-- The mnemonics that read a flag, as R26 to R29, R32 and R33 list them. Nothing reads B: PHP and BRK force it in the
byte they push (R30). -/
def flagReaders : Flag → List Mnemonic
  | .c => [.adc, .sbc, .rol, .ror, .bcc, .bcs, .php, .brk]
  | .z => [.beq, .bne, .php, .brk]
  | .i => [.php, .brk]
  | .d => [.php, .brk]
  | .b => []
  | .v => [.bvc, .bvs, .php, .brk]
  | .n => [.bmi, .bpl, .php, .brk]

/-- The instruction may write A: the destinations R21 lists. -/
def writesA (i : Instr) : Prop :=
  i.mnemonic ∈ [Mnemonic.adc, .sbc, .and, .ora, .eor, .lda, .txa, .tya, .pla] ∨ i ∈ [Instr.aslAcc, .lsrAcc, .rolAcc, .rorAcc]

/-- The instruction may write SP: those R23 lists, BRK only when it pushes a frame. -/
def writesSP (i : Instr) : Prop :=
  i.mnemonic ∈ [Mnemonic.pha, .php, .pla, .plp, .jsr, .rts, .rti, .txs] ∨ (i = .brk ∧ Config.brkMode = .pushFrame)

/-- What BRK at `addr` does for a value of `BRK_MODE` (`49_system.md` R240): from `s` with PC past the opcode, to `t`. -/
def BreakEffect (mode : Config.BrkMode) (addr : Word) (s t : State) : Prop :=
  t.flag .b = true ∧ t.flag .i = true ∧ t.pc = wordOf (s.readMem 0xFFFF) (s.readMem 0xFFFE) ∧
  match mode with
  | .vectorOnly => Frame [.pc, .flag .b, .flag .i] s t
  | .pushFrame =>
    t.readMem (stackAddr s.sp) = hiByte (addr + 2) ∧
    t.readMem (stackAddr (s.sp - 1)) = loByte (addr + 2) ∧
    t.readMem (stackAddr (s.sp - 2)) = s.status ||| 0x30 ∧
    StoresOnlyAt [stackAddr s.sp, stackAddr (s.sp - 1), stackAddr (s.sp - 2)] s t ∧
    t.sp.toNat = (s.sp.toNat + 253) % 256 ∧
    Frame [.pc, .sp, .mem, .flag .b, .flag .i] s t

/-- The instruction run `n` times over, each time on the state the run before gave. -/
def execTimes : Nat → Instr → State → Result
  | 0, _, s => .next s
  | n + 1, i, s =>
    match exec i s with
    | .next t => execTimes n i t
    | .fault r => .fault r
    | .refused r => .refused r

end Sys2Proof.Claims

open Sys2Proof Sys2Proof.Machine Sys2Proof.Claims

/-- Decoding the bytes of a well-formed instruction gives it back and leaves the rest of the stream. Derived from R80,
R81, R82, 30_encoding.md section 4, 92_eei_decisions.md D2. The opcode bytes are the spec's own choice of map (D2; log
entry 3). -/
def Obligations.DecodeOfEncodeGivesTheInstruction : Prop :=
  ∀ (i : Instr) (rest : List Byte), i.wellFormed = true → decode (encode i ++ rest) = .ok (i, rest)

/-- The bytes the decoder took are the encoding of the instruction it gave. Derived from R80, R87, 30_encoding.md
section 4, 92_eei_decisions.md D2. The opcode bytes are the spec's own choice of map (D2; log entry 3). -/
def Obligations.EncodeOfDecodeGivesTheBytes : Prop :=
  ∀ (bs : List Byte) (i : Instr) (rest : List Byte),
    decode bs = .ok (i, rest) → encode i ++ rest = bs ∧ i.wellFormed = true

/-- A string of bytes is one whole instruction iff its opcode is assigned and its length is the one the opcode
announces. Derived from R80, R83, 30_encoding.md section 5, 92_eei_decisions.md D2, 92_eei_decisions.md D3. Which
bytes are unassigned is the spec's own choice (D2, D3; log entry 3). -/
def Obligations.DecoderAcceptsExactlyWellFormedBytes : Prop :=
  ∀ bs : List Byte, (∃ i, decode bs = .ok (i, [])) ↔ wellFormedBytes bs = true

/-- Words written out in the spec decode to the instructions they stand for. Derived from 30_encoding.md sections 4
and 7, 92_eei_decisions.md D2. The opcode bytes are the spec's own choice of map (D2; log entry 3). -/
def Obligations.SpecWordsDecode : Prop :=
  decode [0xA9, 0x03] = .ok (.ldaImm 0x03, []) ∧ decode [0x69, 0x05] = .ok (.adcImm 0x05, []) ∧
  decode [0x8D, 0x00, 0x60] = .ok (.staAbs 0x6000, []) ∧ decode [0xA5, 0x10] = .ok (.ldaZp 0x10, []) ∧
  decode [0xB5, 0x10] = .ok (.ldaZpX 0x10, []) ∧ decode [0xB6, 0x10] = .ok (.ldxZpY 0x10, []) ∧
  decode [0xBD, 0x34, 0x12] = .ok (.ldaAbsX 0x1234, []) ∧ decode [0xB9, 0x34, 0x12] = .ok (.ldaAbsY 0x1234, []) ∧
  decode [0x6C, 0xFF, 0x10] = .ok (.jmpInd 0x10FF, []) ∧ decode [0xA1, 0x20] = .ok (.ldaIndX 0x20, []) ∧
  decode [0xB1, 0x20] = .ok (.ldaIndY 0x20, []) ∧ decode [0xF0, 0x05] = .ok (.beq 0x05, []) ∧
  decode [0x0A] = .ok (.aslAcc, []) ∧ decode [0xE8] = .ok (.inx, [])

/-- A step runs the instruction the bytes at PC decode to, with PC past it, or faults on an unassigned opcode.
Formalises R100, R101. -/
def Obligations.StepRunsTheDecodedInstruction : Prop :=
  ∀ s : State,
    (∀ i rest, decode s.window = .ok (i, rest) → step s = exec i { s with pc := s.pc + BitVec.ofNat 16 i.length }) ∧
    (∀ op, decode s.window = .error (.unassignedOpcode op) →
      step s = .fault (.unimplementedOpcode op { s with pc := s.pc + 1 }))

/-- The 105 unassigned opcode bytes, and no others, raise UnimplementedOpcode with PC past the opcode and nothing else
changed. Derived from R260, 30_encoding.md section 5, 92_eei_decisions.md D3. That it is these 105 bytes is the spec's
own reading (D2, D3; log entry 3). -/
def Obligations.UnassignedOpcodeFaults : Prop :=
  unassignedOpcodes.length = 105 ∧ ∀ s : State,
    (s.nextOpcode ∈ unassignedOpcodes → step s = .fault (.unimplementedOpcode s.nextOpcode { s with pc := s.pc + 1 })) ∧
    (∀ op t, step s = .fault (.unimplementedOpcode op t) →
      op = s.nextOpcode ∧ op ∈ unassignedOpcodes ∧ t = { s with pc := s.pc + 1 })

/-- A step on an assigned opcode always completes: there is no other exception. Derived from 60_exceptions.md section
1, 30_encoding.md section 5, 92_eei_decisions.md D2, 92_eei_decisions.md D3. R261 gives no list of bytes: which ones
are assigned is the spec's own choice of map and reading (R86, D2, D3; log entry 3). -/
def Obligations.AssignedOpcodeAlwaysCompletes : Prop :=
  ∀ s : State,
    (s.nextOpcode ∉ unassignedOpcodes → ∃ t, step s = .next t) ∧
    (∀ r, step s = .fault r → ∃ t, r = .unimplementedOpcode s.nextOpcode t) ∧
    (∀ r, step s ≠ .refused r)

/-- After an UnimplementedOpcode the driver may step again, from the byte after the faulting opcode. Derived from
R271, 60_exceptions.md section 1, 92_eei_decisions.md D24. What the driver does is its own choice (D24; log entry 5).
-/
def Obligations.DriverMayStepAgainAfterAFault : Prop :=
  ∀ s : State, s.nextOpcode ∈ unassignedOpcodes →
    serve .step s = (.unimplementedOpcode s.nextOpcode, { s with pc := s.pc + 1 }) ∧
    (serve .step s).2.nextOpcode = s.readMem (s.pc + 1)

/-- A step that transfers no control ends with PC at the opcode address plus the length, mod 65536. Derived from R100,
R101, 40_fetch_addressing.md section 4. R117 is the spec's own inference: it is marked '[derived: from rules R100 and
R101]'. -/
def Obligations.PcAfterAnInstructionThatStaysInLine : Prop :=
  ∀ (s : State) (i : Instr) (rest : List Byte),
    decode s.window = .ok (i, rest) → transfersControl i s = false →
    ∃ t, step s = .next t ∧ t.pc.toNat = (s.pc.toNat + i.length) % 65536

/-- Every step keeps memory in canonical form and bit 5 of P stored as 1. Derived from R31, R52, R116. The canonical
form is the model's choice (log entry 9). -/
def Obligations.StepKeepsTheInvariant : Prop :=
  ∀ s : State, s.Inv →
    (∀ t, step s = .next t → t.Inv) ∧ (∀ op t, step s = .fault (.unimplementedOpcode op t) → t.Inv)

/-- The states at construction and after reset meet the invariant. Derived from R40, R41. The canonical form is the
model's choice (log entry 9). -/
def Obligations.ResetAndConstructionMeetTheInvariant : Prop :=
  State.construction.Inv ∧ State.reset.Inv ∧ ∀ s : State, s.Inv → (performReset s).Inv

/-- Every sequence of host requests, steps among them, keeps the invariant. Derived from R60, 10_state.md sections 4
and 7, 92_eei_decisions.md D11. The canonical form is the model's choice (log entry 9), bit 5 on a host write the
spec's (D11; log entry 3). -/
def Obligations.RequestsKeepTheInvariant : Prop :=
  ∀ (rs : List Request) (s : State), s.Inv → (serveAll rs s).Inv

/-- Two memories in canonical form that read the same at all 65,536 addresses are equal as data. Derived from R50,
R56. The canonical form is the model's choice (log entry 9). -/
def Obligations.MemoriesThatReadAlikeAreEqual : Prop :=
  ∀ m m' : Memory, Memory.wf m = true → Memory.wf m' = true →
    (∀ addr : Nat, addr < 65536 → Memory.read m addr = Memory.read m' addr) → m = m'

/-- Reset sets A = X = Y = 0, SP = 0xFD, P = 0x24 and PC from the word at 0xFFFC, and changes no memory. Derived from
R40, R290, 92_eei_decisions.md D21. That Reset writes no memory is the spec's own choice (D21; log entry 3). -/
def Obligations.ResetLoadsTheResetVector : Prop :=
  ∀ s : State, hostAct .reset s = performReset s ∧
    performReset s =
      { s with a := 0x00, x := 0x00, y := 0x00, sp := 0xFD, p := 0x24, pc := wordOf (s.readMem 0xFFFD) (s.readMem 0xFFFC) }

/-- Reset is idempotent; State.reset is Reset of the construction state, whose registers and memory are zero. Derived
from R292, 10_state.md section 8, 70_reset_and_hazards.md section 1, 92_eei_decisions.md D15, 92_eei_decisions.md D21.
SP at construction is the spec's own reading (D15; log entry 3); that State.reset is Reset of the construction state
is the model's (log entry 8). -/
def Obligations.ResetIsIdempotentAndResetStateIsResetOfConstruction : Prop :=
  (∀ s : State, performReset (performReset s) = performReset s) ∧ State.reset = performReset State.construction ∧
  State.construction.a = 0x00 ∧ State.construction.x = 0x00 ∧ State.construction.y = 0x00 ∧
  State.construction.sp = 0x00 ∧ State.construction.p = 0x24 ∧ State.construction.pc = 0x0000 ∧
  ∀ addr : Word, State.construction.readMem addr = 0x00

/-- A read at any address gives the value mod 256 last written there mod 65536; a write changes no other byte.
Formalises R51, R52. -/
def Obligations.HostWriteThenHostRead : Prop :=
  ∀ (s : State) (addr addr' v : Nat),
    hostRead (hostWrite s addr v) addr' =
      (if addr' % 65536 = addr % 65536 then BitVec.ofNat 8 (v % 256) else hostRead s addr') ∧
    hostRead s addr = hostRead s (addr % 65536) ∧ Frame [.mem] s (hostWrite s addr v)

/-- A host write of a register keeps the value mod its width, P with bit 5 as 1; host Push and Pull change no flag.
Derived from 10_state.md sections 4, 5 and 7, 92_eei_decisions.md D10, 92_eei_decisions.md D11. Bit 5 on a host write
(D11) and the order of Push and Pull (D10) are the spec's own choices (log entry 3). -/
def Obligations.HostActionsOnRegisters : Prop :=
  ∀ (s : State) (v : Nat),
    ((hostAct (.writeA v) s).a.toNat = v % 256 ∧ Frame [.a] s (hostAct (.writeA v) s)) ∧
    ((hostAct (.writeX v) s).x.toNat = v % 256 ∧ Frame [.x] s (hostAct (.writeX v) s)) ∧
    ((hostAct (.writeY v) s).y.toNat = v % 256 ∧ Frame [.y] s (hostAct (.writeY v) s)) ∧
    ((hostAct (.writeSP v) s).sp.toNat = v % 256 ∧ Frame [.sp] s (hostAct (.writeSP v) s)) ∧
    ((hostAct (.writePC v) s).pc.toNat = v % 65536 ∧ Frame [.pc] s (hostAct (.writePC v) s)) ∧
    ((hostAct (.writeP v) s).status = BitVec.ofNat 8 v ||| 0x20 ∧
      Frame [.flag .c, .flag .z, .flag .i, .flag .d, .flag .b, .flag .v, .flag .n] s (hostAct (.writeP v) s)) ∧
    ((hostAct (.push v) s).readMem (stackAddr s.sp) = BitVec.ofNat 8 v ∧ (hostAct (.push v) s).sp = s.sp - 1 ∧
      StoresOnlyAt [stackAddr s.sp] s (hostAct (.push v) s) ∧ Frame [.sp, .mem] s (hostAct (.push v) s)) ∧
    (hostPulled s = s.readMem (stackAddr (s.sp + 1)) ∧ (hostAct .pull s).sp = s.sp + 1 ∧ Frame [.sp] s (hostAct .pull s))

/-- Bit 5 of P reads as 1 in every state, and every write of the whole of P or of a flag stores it as 1. Derived from
R31, 92_eei_decisions.md D11. The clause on the host write is the spec's own choice (D11; log entry 3). -/
def Obligations.BitFiveOfPIsHardwiredToOne : Prop :=
  ∀ s : State, s.status.getLsbD 5 = true ∧
    (∃ t, exec .plp s = .next t ∧ t.p.getLsbD 5 = true) ∧ (∃ t, exec .rti s = .next t ∧ t.p.getLsbD 5 = true) ∧
    (∀ v : Nat, (hostAct (.writeP v) s).p.getLsbD 5 = true) ∧
    (∀ (f : Flag) (on : Bool), (s.setFlag f on).p.getLsbD 5 = true)

/-- Push stores at 0x0100 + SP, then decrements SP; Pull increments SP, then reads; each undoes the other within page
1. Derived from R35, 10_state.md section 5, 92_eei_decisions.md D10. The order is the spec's own choice (D10; log
entry 3). -/
def Obligations.PushStoresThenDecrementsAndPullIncrementsThenReads : Prop :=
  ∀ (s : State) (v : Byte),
    (stackAddr s.sp).toNat = 0x0100 + s.sp.toNat ∧
    (s.push v).readMem (stackAddr s.sp) = v ∧ (s.push v).sp.toNat = (s.sp.toNat + 255) % 256 ∧
    StoresOnlyAt [stackAddr s.sp] s (s.push v) ∧ Frame [.sp, .mem] s (s.push v) ∧
    s.pull.2.sp.toNat = (s.sp.toNat + 1) % 256 ∧
    s.pull.1 = s.readMem (BitVec.ofNat 16 (0x0100 + (s.sp.toNat + 1) % 256)) ∧ Frame [.sp] s s.pull.2 ∧
    (s.push v).pull.1 = v ∧ (s.push v).pull.2.sp = s.sp

/-- Immediate takes the byte after the opcode; the zero-page modes address b, (b + X) mod 256 and (b + Y) mod 256 in
page 0. Derived from R104, R105, R106, 40_fetch_addressing.md section 3. The Zero Page,Y clause rests on the spec's
own list of the opcodes that have the mode (R107, from general knowledge; log entry 3). -/
def Obligations.ImmediateAndZeroPageModes : Prop :=
  ∀ s : State,
    let b := s.readMem (s.pc + 1)
    (s.nextOpcode = 0xA9 → ∃ t, step s = .next t ∧ t.pc = s.pc + 2 ∧ t.a = b) ∧
    (s.nextOpcode = 0xA5 → ∃ t, step s = .next t ∧ t.pc = s.pc + 2 ∧ t.a = s.readMem (BitVec.ofNat 16 b.toNat)) ∧
    (s.nextOpcode = 0xB5 → ∃ t, step s = .next t ∧ t.pc = s.pc + 2 ∧
      t.a = s.readMem (BitVec.ofNat 16 ((b.toNat + s.x.toNat) % 256))) ∧
    (s.nextOpcode = 0xB6 → ∃ t, step s = .next t ∧ t.pc = s.pc + 2 ∧
      t.x = s.readMem (BitVec.ofNat 16 ((b.toNat + s.y.toNat) % 256)))

/-- The absolute modes address the little-endian operand word, plus X or Y mod 65536. Formalises R108, R109. -/
def Obligations.AbsoluteModes : Prop :=
  ∀ s : State,
    let w := (s.readMem (s.pc + 1)).toNat + 256 * (s.readMem (s.pc + 2)).toNat
    (s.nextOpcode = 0xAD → ∃ t, step s = .next t ∧ t.pc = s.pc + 3 ∧ t.a = s.readMem (BitVec.ofNat 16 w)) ∧
    (s.nextOpcode = 0xBD → ∃ t, step s = .next t ∧ t.pc = s.pc + 3 ∧
      t.a = s.readMem (BitVec.ofNat 16 ((w + s.x.toNat) % 65536))) ∧
    (s.nextOpcode = 0xB9 → ∃ t, step s = .next t ∧ t.pc = s.pc + 3 ∧
      t.a = s.readMem (BitVec.ofNat 16 ((w + s.y.toNat) % 65536)))

/-- (Indirect,X) reads its pointer at (b + X) mod 256 in page 0, the high byte wrapping within page 0. Derived from
40_fetch_addressing.md section 3, 92_eei_decisions.md D6. The wrap of the pointer is the spec's own choice
(`ZP_PTR_WRAP`, D6; log entry 2). -/
def Obligations.IndirectXMode : Prop :=
  ∀ s : State,
    let b := s.readMem (s.pc + 1)
    let p := (b.toNat + s.x.toNat) % 256
    let pointer := fun hiAddr : Nat =>
      (s.readMem (BitVec.ofNat 16 p)).toNat + 256 * (s.readMem (BitVec.ofNat 16 hiAddr)).toNat
    (s.nextOpcode = 0xA1 → ∃ t, step s = .next t ∧ t.pc = s.pc + 2 ∧
      t.a = s.readMem (BitVec.ofNat 16 (pointer ((p + 1) % 256)))) ∧
    (indirectXWith true b s).toNat = pointer ((p + 1) % 256) ∧ (indirectXWith false b s).toNat = pointer (p + 1)

/-- (Indirect),Y reads its pointer at b in page 0, the high byte wrapping within page 0, and adds Y mod 65536. Derived
from 40_fetch_addressing.md section 3, 92_eei_decisions.md D6. The wrap of the pointer is the spec's own choice
(`ZP_PTR_WRAP`, D6; log entry 2). -/
def Obligations.IndirectYMode : Prop :=
  ∀ s : State,
    let b := s.readMem (s.pc + 1)
    let target := fun hiAddr : Nat =>
      ((s.readMem (BitVec.ofNat 16 b.toNat)).toNat + 256 * (s.readMem (BitVec.ofNat 16 hiAddr)).toNat + s.y.toNat) % 65536
    (s.nextOpcode = 0xB1 → ∃ t, step s = .next t ∧ t.pc = s.pc + 2 ∧
      t.a = s.readMem (BitVec.ofNat 16 (target ((b.toNat + 1) % 256)))) ∧
    (indirectYWith true b s).toNat = target ((b.toNat + 1) % 256) ∧ (indirectYWith false b s).toNat = target (b.toNat + 1)

/-- A branch adds its signed displacement to the PC past the displacement byte, mod 65536. Formalises R114. -/
def Obligations.RelativeMode : Prop :=
  ∀ s : State, s.nextOpcode = 0xD0 →
    let b := s.readMem (s.pc + 1)
    ∃ t, step s = .next t ∧ Frame [.pc] s t ∧
      (t.pc.toNat : Int) = ((s.pc.toNat : Int) + 2 + (if s.flag .z = false then b.toInt else 0)) % 65536

/-- The adder gives the sum mod 256, the carry out of the exact sum, and the signed overflow. Derived from
41_arithmetic.md section 1. The last clause is the spec's own inference: R130 marks it '[derived: the signed reading
of `vout` from the formula]'. -/
def Obligations.AdderIsExact : Prop :=
  ∀ (a m : Byte) (c : Bool),
    (addCore a m c).r.toNat = (a.toNat + m.toNat + c.toNat) % 256 ∧
    (addCore a m c).cout = decide (a.toNat + m.toNat + c.toNat > 255) ∧
    (addCore a m c).vout =
      (decide ((a ^^^ (addCore a m c).r) &&& 0x80 ≠ 0) && decide ((a ^^^ m) &&& 0x80 = 0)) ∧
    ((addCore a m c).vout = true ↔ a.toInt + m.toInt + (c.toNat : Int) < -128 ∨ 127 < a.toInt + m.toInt + (c.toNat : Int))

/-- ADC: A becomes (A + M + C) mod 256 in every form, with C, V, Z and N from the sum and nothing else changed.
Derived from R130, 41_arithmetic.md section 2, 92_eei_decisions.md D18. Z and N are the spec's own choice (D18; log
entry 3); D has no part in it (D9; log entry 4). -/
def Obligations.AdcAddsWithCarry : Prop :=
  ∀ (b : Byte) (w : Word) (s : State), ∀ f ∈ adcForms b w s,
    decode f.bytes = .ok (f.instr, []) ∧
    ∃ t, exec f.instr s = .next t ∧
      t.a.toNat = (s.a.toNat + (f.src.read s).toNat + (s.flag .c).toNat) % 256 ∧
      t.flag .c = decide (255 < s.a.toNat + (f.src.read s).toNat + (s.flag .c).toNat) ∧
      (t.flag .v = true ↔ s.a.toInt + (f.src.read s).toInt + ((s.flag .c).toNat : Int) < -128 ∨
        127 < s.a.toInt + (f.src.read s).toInt + ((s.flag .c).toNat : Int)) ∧
      ZNFrom t.a t ∧ Frame [.a, .flag .c, .flag .v, .flag .z, .flag .n] s t

/-- SBC: A becomes (A - M - (1 - C)) mod 256 in every form, with C, V, Z and N from the difference and nothing else
changed. Derived from R130, 41_arithmetic.md section 2, 92_eei_decisions.md D18. Z and N are the spec's own choice
(D18; log entry 3); D has no part in it (D9; log entry 4). -/
def Obligations.SbcSubtractsWithBorrow : Prop :=
  ∀ (b : Byte) (w : Word) (s : State), ∀ f ∈ sbcForms b w s,
    decode f.bytes = .ok (f.instr, []) ∧
    ∃ t, exec f.instr s = .next t ∧
      (t.a.toNat : Int) = ((s.a.toNat : Int) - (f.src.read s).toNat - (1 - (s.flag .c).toNat)) % 256 ∧
      t.flag .c = decide ((f.src.read s).toNat + (1 - (s.flag .c).toNat) ≤ s.a.toNat) ∧
      (t.flag .v = true ↔ s.a.toInt - (f.src.read s).toInt - (1 - ((s.flag .c).toNat : Int)) < -128 ∨
        127 < s.a.toInt - (f.src.read s).toInt - (1 - ((s.flag .c).toNat : Int))) ∧
      ZNFrom t.a t ∧ Frame [.a, .flag .c, .flag .v, .flag .z, .flag .n] s t

/-- ADC with carry c, then SBC of the same byte with carry 1 - c, gives A back; with the carry ADC made, only if it is
1 - c. Derived from 41_arithmetic.md section 3. The laws of R134 are the spec's own inference: it marks them
'[derived: from rules R130 to R132]'. -/
def Obligations.AdcThenSbcRestoresA : Prop :=
  ∀ (m : Byte) (s : State), ∃ t u u', exec (.adcImm m) s = .next t ∧
    exec (.sbcImm m) (t.setFlag .c (!s.flag .c)) = .next u ∧ u.a = s.a ∧
    exec (.sbcImm m) t = .next u' ∧ (u'.a = s.a ↔ t.flag .c ≠ s.flag .c)

/-- AND, ORA and EOR combine A with the operand bit by bit in every form, set Z and N, and change nothing else.
Formalises R140, R141, R142. -/
def Obligations.LogicalOperationsCombineAWithMemory : Prop :=
  ∀ (b : Byte) (w : Word) (s : State), ∀ g ∈ [((· && ·), andForms b w s), ((· || ·), oraForms b w s), (xor, eorForms b w s)],
    ∀ f ∈ g.2, decode f.bytes = .ok (f.instr, []) ∧
    ∃ t, exec f.instr s = .next t ∧
      (∀ k, k < 8 → t.a.getLsbD k = g.1 (s.a.getLsbD k) ((f.src.read s).getLsbD k)) ∧
      ZNFrom t.a t ∧ Frame [.a, .flag .z, .flag .n] s t

/-- BIT sets Z from A and M, copies bits 7 and 6 of M to N and V, and changes nothing else. Derived from 42_logical.md
R143, 92_eei_decisions.md D19. That BIT has these two forms is the spec's own choice (D19; log entry 3). -/
def Obligations.BitTestsMemoryAgainstA : Prop :=
  ∀ (b : Byte) (w : Word) (s : State), ∀ f ∈ bitForms b w,
    decode f.bytes = .ok (f.instr, []) ∧
    ∃ t, exec f.instr s = .next t ∧
      (t.flag .z = true ↔ ∀ k, k < 8 → ¬(s.a.getLsbD k = true ∧ (f.src.read s).getLsbD k = true)) ∧
      t.flag .n = (f.src.read s).getLsbD 7 ∧ t.flag .v = (f.src.read s).getLsbD 6 ∧
      Frame [.flag .z, .flag .n, .flag .v] s t

/-- ASL doubles its operand mod 256, moves bit 7 to C, sets Z and N, and changes nothing else. Formalises R150. -/
def Obligations.AslShiftsLeft : Prop :=
  ∀ (b : Byte) (w : Word) (s : State), ∀ f ∈ aslForms b w s,
    decode f.bytes = .ok (f.instr, []) ∧
    ∃ t, exec f.instr s = .next t ∧
      ∃ r : Byte, r.toNat = 2 * (f.place.read s).toNat % 256 ∧
        t.flag .c = decide (128 ≤ (f.place.read s).toNat) ∧ ZNFrom r t ∧
        WritesPlace f.place r [.flag .c, .flag .z, .flag .n] s t

/-- LSR halves its operand, moves bit 0 to C, sets Z and N, and changes nothing else. Formalises R151. -/
def Obligations.LsrShiftsRight : Prop :=
  ∀ (b : Byte) (w : Word) (s : State), ∀ f ∈ lsrForms b w s,
    decode f.bytes = .ok (f.instr, []) ∧
    ∃ t, exec f.instr s = .next t ∧
      ∃ r : Byte, r.toNat = (f.place.read s).toNat / 2 ∧
        t.flag .c = decide ((f.place.read s).toNat % 2 = 1) ∧ ZNFrom r t ∧
        WritesPlace f.place r [.flag .c, .flag .z, .flag .n] s t

/-- ROL shifts left with the previous carry into bit 0 and bit 7 into C, sets Z and N, and changes nothing else.
Formalises R152. -/
def Obligations.RolRotatesLeftThroughCarry : Prop :=
  ∀ (b : Byte) (w : Word) (s : State), ∀ f ∈ rolForms b w s,
    decode f.bytes = .ok (f.instr, []) ∧
    ∃ t, exec f.instr s = .next t ∧
      ∃ r : Byte, r.toNat = (2 * (f.place.read s).toNat + (s.flag .c).toNat) % 256 ∧
        t.flag .c = decide (128 ≤ (f.place.read s).toNat) ∧ ZNFrom r t ∧
        WritesPlace f.place r [.flag .c, .flag .z, .flag .n] s t

/-- ROR shifts right with the previous carry into bit 7 and bit 0 into C, sets Z and N, and changes nothing else.
Formalises R153. -/
def Obligations.RorRotatesRightThroughCarry : Prop :=
  ∀ (b : Byte) (w : Word) (s : State), ∀ f ∈ rorForms b w s,
    decode f.bytes = .ok (f.instr, []) ∧
    ∃ t, exec f.instr s = .next t ∧
      ∃ r : Byte, r.toNat = (f.place.read s).toNat / 2 + 128 * (s.flag .c).toNat ∧
        t.flag .c = decide ((f.place.read s).toNat % 2 = 1) ∧ ZNFrom r t ∧
        WritesPlace f.place r [.flag .c, .flag .z, .flag .n] s t

/-- Nine ROLs, or nine RORs, of A restore A and C and change only Z and N. Derived from R152, R153. -/
def Obligations.NineRotationsRestoreAAndCarry : Prop :=
  ∀ s : State, ∀ i ∈ [Instr.rolAcc, .rorAcc],
    ∃ t, execTimes 9 i s = .next t ∧ t.a = s.a ∧ t.flag .c = s.flag .c ∧ Frame [.flag .z, .flag .n] s t

/-- CMP, CPX and CPY set C iff register >= operand, Z iff equal, N from the difference, and change nothing else.
Derived from 44_compare.md R160, R161, R162, R163. R160 marks as its own inference '[derived: the readings of Z and N
from the formula; that V is not written because the source names only C, Z, N]'. -/
def Obligations.CompareSetsCarryZeroNegative : Prop :=
  ∀ (b : Byte) (w : Word) (s : State),
    ∀ g ∈ [(s.a, cmpForms b w s), (s.x, cpxForms b w), (s.y, cpyForms b w)], ∀ f ∈ g.2,
    decode f.bytes = .ok (f.instr, []) ∧
    ∃ t, exec f.instr s = .next t ∧
      t.flag .c = decide ((f.src.read s).toNat ≤ g.1.toNat) ∧
      t.flag .z = decide (g.1 = f.src.read s) ∧
      t.flag .n = decide ((128 : Int) ≤ ((g.1.toNat : Int) - (f.src.read s).toNat) % 256) ∧
      Frame [.flag .c, .flag .z, .flag .n] s t

/-- INC and DEC add and subtract 1 mod 256 at the effective address, set Z and N, and change nothing else. Formalises
R170, R171. -/
def Obligations.IncAndDecChangeAMemoryByteByOne : Prop :=
  ∀ (b : Byte) (w : Word) (s : State), ∀ g ∈ [(1, incForms b w s), (255, decForms b w s)], ∀ f ∈ g.2,
    decode f.bytes = .ok (f.instr, []) ∧
    ∃ t, exec f.instr s = .next t ∧
      (t.readMem f.ea).toNat = ((s.readMem f.ea).toNat + g.1) % 256 ∧
      ZNFrom (t.readMem f.ea) t ∧ StoresOnlyAt [f.ea] s t ∧ Frame [.mem, .flag .z, .flag .n] s t

/-- INX, INY, DEX and DEY add or subtract 1 mod 256, set Z and N, and change nothing else. Formalises R172, R173,
R174, R175. -/
def Obligations.IncrementAndDecrementOfIndexRegisters : Prop :=
  ∀ s : State,
    (decode [0xE8] = .ok (.inx, []) ∧ ∃ t, exec .inx s = .next t ∧ t.x.toNat = (s.x.toNat + 1) % 256 ∧ ZNFrom t.x t ∧
      Frame [.x, .flag .z, .flag .n] s t) ∧
    (decode [0xC8] = .ok (.iny, []) ∧ ∃ t, exec .iny s = .next t ∧ t.y.toNat = (s.y.toNat + 1) % 256 ∧ ZNFrom t.y t ∧
      Frame [.y, .flag .z, .flag .n] s t) ∧
    (decode [0xCA] = .ok (.dex, []) ∧ ∃ t, exec .dex s = .next t ∧ t.x.toNat = (s.x.toNat + 255) % 256 ∧ ZNFrom t.x t ∧
      Frame [.x, .flag .z, .flag .n] s t) ∧
    (decode [0x88] = .ok (.dey, []) ∧ ∃ t, exec .dey s = .next t ∧ t.y.toNat = (s.y.toNat + 255) % 256 ∧ ZNFrom t.y t ∧
      Frame [.y, .flag .z, .flag .n] s t)

/-- An increment then a decrement, or the other way round, restores the value; Z and N are those of the final value.
Derived from R170, R171, R172, R173, R174, R175, 45_incdec.md R176. R176 is the spec's own inference: it is marked
'[derived: from rules R170 to R175]', and the source it quotes names INC and DEC only. -/
def Obligations.IncrementThenDecrementRestores : Prop :=
  ∀ (w : Word) (s : State),
    (∀ ij ∈ [(Instr.incAbs w, Instr.decAbs w), (.decAbs w, .incAbs w)], ∃ t u, exec ij.1 s = .next t ∧ exec ij.2 t = .next u ∧
      ZNFrom (s.readMem w) u ∧ Frame [.flag .z, .flag .n] s u) ∧
    (∀ ij ∈ [(Instr.inx, Instr.dex), (.dex, .inx)], ∃ t u, exec ij.1 s = .next t ∧ exec ij.2 t = .next u ∧
      ZNFrom s.x u ∧ Frame [.flag .z, .flag .n] s u) ∧
    (∀ ij ∈ [(Instr.iny, Instr.dey), (.dey, .iny)], ∃ t u, exec ij.1 s = .next t ∧ exec ij.2 t = .next u ∧
      ZNFrom s.y u ∧ Frame [.flag .z, .flag .n] s u)

/-- LDA, LDX and LDY put the operand in the register, set Z and N, and change nothing else. Formalises R180, R181,
R182. -/
def Obligations.LoadsMoveTheOperandToTheRegister : Prop :=
  ∀ (b : Byte) (w : Word) (s : State),
    (∀ f ∈ ldaForms b w s, decode f.bytes = .ok (f.instr, []) ∧ ∃ t, exec f.instr s = .next t ∧
      t.a = f.src.read s ∧ ZNFrom (f.src.read s) t ∧ Frame [.a, .flag .z, .flag .n] s t) ∧
    (∀ f ∈ ldxForms b w s, decode f.bytes = .ok (f.instr, []) ∧ ∃ t, exec f.instr s = .next t ∧
      t.x = f.src.read s ∧ ZNFrom (f.src.read s) t ∧ Frame [.x, .flag .z, .flag .n] s t) ∧
    (∀ f ∈ ldyForms b w s, decode f.bytes = .ok (f.instr, []) ∧ ∃ t, exec f.instr s = .next t ∧
      t.y = f.src.read s ∧ ZNFrom (f.src.read s) t ∧ Frame [.y, .flag .z, .flag .n] s t)

/-- STA, STX and STY put the register in the byte at the effective address and change nothing else, no flag among it.
Formalises R183, R184, R185. -/
def Obligations.StoresMoveTheRegisterToMemory : Prop :=
  ∀ (b : Byte) (w : Word) (s : State),
    ∀ g ∈ [(s.a, staForms b w s), (s.x, stxForms b w s), (s.y, styForms b w s)], ∀ f ∈ g.2,
    decode f.bytes = .ok (f.instr, []) ∧
    ∃ t, exec f.instr s = .next t ∧ t.readMem f.ea = g.1 ∧ StoresOnlyAt [f.ea] s t ∧ Frame [.mem] s t

/-- TAX and TAY copy A to X and to Y, set Z and N from it, and change nothing else. Formalises R186, R187. -/
def Obligations.TaxAndTayCopyA : Prop :=
  ∀ s : State,
    (decode [0xAA] = .ok (.tax, []) ∧ ∃ t, exec .tax s = .next t ∧ t.x = s.a ∧ ZNFrom s.a t ∧
      Frame [.x, .flag .z, .flag .n] s t) ∧
    (decode [0xA8] = .ok (.tay, []) ∧ ∃ t, exec .tay s = .next t ∧ t.y = s.a ∧ ZNFrom s.a t ∧
      Frame [.y, .flag .z, .flag .n] s t)

/-- TXA, TYA and TSX copy a register and set Z and N; TXS copies X to SP and writes no flag; nothing else changes.
Derived from 46_load_store_transfer.md section 3, 92_eei_decisions.md D4. What these four do is the spec's own choice
(D4; log entry 3). -/
def Obligations.OtherTransfersCopyARegister : Prop :=
  ∀ s : State,
    (decode [0x8A] = .ok (.txa, []) ∧ ∃ t, exec .txa s = .next t ∧ t.a = s.x ∧ ZNFrom s.x t ∧
      Frame [.a, .flag .z, .flag .n] s t) ∧
    (decode [0x98] = .ok (.tya, []) ∧ ∃ t, exec .tya s = .next t ∧ t.a = s.y ∧ ZNFrom s.y t ∧
      Frame [.a, .flag .z, .flag .n] s t) ∧
    (decode [0xBA] = .ok (.tsx, []) ∧ ∃ t, exec .tsx s = .next t ∧ t.x = s.sp ∧ ZNFrom s.sp t ∧
      Frame [.x, .flag .z, .flag .n] s t) ∧
    (decode [0x9A] = .ok (.txs, []) ∧ ∃ t, exec .txs s = .next t ∧ t.sp = s.x ∧ Frame [.sp] s t)

/-- Each conditional branch goes to its target iff the one flag it names is as it names, and changes nothing but PC.
Derived from 47_control_transfer.md R200, R201, R202, R203, R204, R205, R206, R207, R208, 92_eei_decisions.md D2. The
opcode bytes in the decode clauses are the spec's own, from general knowledge (R200, G15, D2; log entry 3). -/
def Obligations.BranchesTestOneFlag : Prop :=
  ∀ (addr : Word) (b : Byte) (s : State), ∀ f ∈ branchForms b s,
    decode f.bytes = .ok (f.instr, []) ∧
    ∃ t, exec f.instr (s.setPC (addr + 2)) = .next t ∧
      (t.pc.toNat : Int) = ((addr.toNat : Int) + 2 + (if f.cond then b.toInt else 0)) % 65536 ∧ Frame [.pc] s t

/-- JMP absolute sets PC to its operand; JMP indirect to the word at its pointer, the high byte from within the
pointer's page. Formalises R209, R210. -/
def Obligations.JumpsSetPc : Prop :=
  ∀ (w : Word) (s : State),
    let hiAddr : Word := BitVec.ofNat 16 (if w.toNat % 256 = 255 then w.toNat / 256 * 256 else w.toNat + 1)
    (decode [0x4C, loByte w, hiByte w] = .ok (.jmpAbs w, []) ∧
      ∃ t, exec (.jmpAbs w) s = .next t ∧ t.pc = w ∧ Frame [.pc] s t) ∧
    (decode [0x6C, loByte w, hiByte w] = .ok (.jmpInd w, []) ∧
      ∃ t, exec (.jmpInd w) s = .next t ∧ t.pc.toNat = (s.readMem w).toNat + 256 * (s.readMem hiAddr).toNat ∧
      Frame [.pc] s t) ∧
    hiAddr = w &&& 0xFF00 ||| (w + 1) &&& 0x00FF

/-- JSR pushes its address + 2, high byte first, and jumps to its operand; nothing else changes. Derived from R211,
10_state.md section 5, 92_eei_decisions.md D10. Where the bytes lie in the stack page is the spec's own choice of
order (D10; log entry 3). -/
def Obligations.JsrPushesTheReturnAddressLessOne : Prop :=
  ∀ (addr w : Word) (s : State),
    decode [0x20, loByte w, hiByte w] = .ok (.jsr w, []) ∧
    ∃ t, exec (.jsr w) (s.setPC (addr + 3)) = .next t ∧
      t.readMem (stackAddr s.sp) = hiByte (addr + 2) ∧ t.readMem (stackAddr (s.sp - 1)) = loByte (addr + 2) ∧
      StoresOnlyAt [stackAddr s.sp, stackAddr (s.sp - 1)] s t ∧
      t.sp.toNat = (s.sp.toNat + 254) % 256 ∧ t.pc = w ∧ Frame [.pc, .sp, .mem] s t

/-- RTS pulls the low byte, then the high byte, and sets PC to the pulled word plus 1; nothing else changes. Derived
from R212, 10_state.md section 5, 92_eei_decisions.md D10. Where the bytes lie in the stack page is the spec's own
choice of order (D10; log entry 3). -/
def Obligations.RtsPullsTheReturnAddress : Prop :=
  ∀ s : State, decode [0x60] = .ok (.rts, []) ∧
    ∃ t, exec .rts s = .next t ∧
      t.pc.toNat = ((s.readMem (BitVec.ofNat 16 (0x0100 + (s.sp.toNat + 1) % 256))).toNat +
        256 * (s.readMem (BitVec.ofNat 16 (0x0100 + (s.sp.toNat + 2) % 256))).toNat + 1) % 65536 ∧
      t.sp.toNat = (s.sp.toNat + 2) % 256 ∧ Frame [.pc, .sp] s t

/-- RTS right after JSR goes to the address after the JSR and restores SP. Derived from R211, R212, 10_state.md
section 5, 92_eei_decisions.md D10. Where the bytes lie in the stack page is the spec's own choice of order (D10; log
entry 3). -/
def Obligations.RtsAfterJsrReturnsPastTheJsr : Prop :=
  ∀ (addr w : Word) (s : State), ∃ t u, exec (.jsr w) (s.setPC (addr + 3)) = .next t ∧ exec .rts t = .next u ∧
    u.pc = addr + 3 ∧ StoresOnlyAt [stackAddr s.sp, stackAddr (s.sp - 1)] s u ∧ Frame [.pc, .mem] s u

/-- PHA pushes A; PHP pushes P with bits 4 and 5 set and leaves P unchanged; nothing else changes. Derived from R220,
48_stack_flag.md section 1, 92_eei_decisions.md D8, 92_eei_decisions.md D10. Where the bytes lie in the stack page is
the spec's own choice of order (D10; log entry 3). That PHP leaves P as it is, is the spec's own choice (D8; log entry
3). -/
def Obligations.PushInstructionsStoreOneByte : Prop :=
  ∀ s : State, ∀ g ∈ [(([0x48] : List Byte), Instr.pha, s.a), ([0x08], .php, s.status ||| 0x30)],
    decode g.1 = .ok (g.2.1, []) ∧
    ∃ t, exec g.2.1 s = .next t ∧ t.readMem (stackAddr s.sp) = g.2.2 ∧ StoresOnlyAt [stackAddr s.sp] s t ∧
      t.sp.toNat = (s.sp.toNat + 255) % 256 ∧ t.status = s.status ∧ Frame [.sp, .mem] s t

/-- PLA pulls A and sets Z and N; PLP pulls P with bit 4 cleared and bit 5 set; nothing else changes. Derived from
R221, R223, 10_state.md section 5, 92_eei_decisions.md D10. Where the bytes lie in the stack page is the spec's own
choice of order (D10; log entry 3). -/
def Obligations.PullInstructionsTakeOneByte : Prop :=
  ∀ s : State,
    let v := s.readMem (BitVec.ofNat 16 (0x0100 + (s.sp.toNat + 1) % 256))
    (decode [0x68] = .ok (.pla, []) ∧ ∃ t, exec .pla s = .next t ∧ t.a = v ∧ t.sp.toNat = (s.sp.toNat + 1) % 256 ∧
      ZNFrom v t ∧ Frame [.a, .sp, .flag .z, .flag .n] s t) ∧
    (decode [0x28] = .ok (.plp, []) ∧ ∃ t, exec .plp s = .next t ∧ t.status = v &&& 0xEF ||| 0x20 ∧
      t.sp.toNat = (s.sp.toNat + 1) % 256 ∧
      Frame [.sp, .flag .c, .flag .z, .flag .i, .flag .d, .flag .b, .flag .v, .flag .n] s t)

/-- PHP then PLP restores all flags except B, which is 0, and restores SP. Derived from R223, 48_stack_flag.md section
1, 10_state.md section 5, 92_eei_decisions.md D8, 92_eei_decisions.md D10. Where the bytes lie in the stack page is
the spec's own choice of order (D10; log entry 3). That PHP leaves P as it is, is the spec's own choice (D8; log entry
3). -/
def Obligations.PlpAfterPhpRestoresEveryFlagButBreak : Prop :=
  ∀ s : State, ∃ t u, exec .php s = .next t ∧ exec .plp t = .next u ∧ u.flag .b = false ∧
    StoresOnlyAt [stackAddr s.sp] s u ∧ Frame [.flag .b, .mem] s u

/-- SEC, CLC, SED, CLD, SEI, CLI and CLV write the one flag they name and change nothing else. Formalises R224, R225,
R226, R227, R228, R229, R230. -/
def Obligations.FlagInstructionsWriteOneFlag : Prop :=
  ∀ s : State, ∀ f ∈ flagForms, decode f.bytes = .ok (f.instr, []) ∧
    ∃ t, exec f.instr s = .next t ∧ t.flag f.flag = f.on ∧ Frame [.flag f.flag] s t

/-- BRK, for both values of BRK_MODE: pushes the frame of that mode, sets B and I, and takes PC from 0xFFFE. Derived
from 49_system.md R240, 60_exceptions.md section 3, 92_eei_decisions.md D7, 92_eei_decisions.md D23. The frame is the
spec's own choice (D7, D23; log entries 1 and 3); `BRK_MODE` is left open (log entry 1). -/
def Obligations.BrkEntersThroughTheVector : Prop :=
  ∀ (addr : Word) (s : State), decode [0x00] = .ok (.brk, []) ∧
    (∃ t, exec .brk (s.setPC (addr + 1)) = .next t ∧ BreakEffect Config.brkMode addr s t) ∧
    ∀ mode : Config.BrkMode, BreakEffect mode addr s (takeBreak mode (s.setPC (addr + 1)))

/-- RTI pulls P (bit 4 cleared, bit 5 set), then PC low and high with no + 1; nothing else changes. Derived from
49_system.md R241, 92_eei_decisions.md D5. What RTI does is the spec's own choice (D5; log entry 3). -/
def Obligations.RtiPullsStatusThenPc : Prop :=
  ∀ s : State, decode [0x40] = .ok (.rti, []) ∧
    let stack := fun k : Nat => s.readMem (BitVec.ofNat 16 (0x0100 + (s.sp.toNat + k) % 256))
    ∃ t, exec .rti s = .next t ∧ t.status = stack 1 &&& 0xEF ||| 0x20 ∧
      t.pc.toNat = (stack 2).toNat + 256 * (stack 3).toNat ∧ t.sp.toNat = (s.sp.toNat + 3) % 256 ∧
      Frame [.pc, .sp, .flag .c, .flag .z, .flag .i, .flag .d, .flag .b, .flag .v, .flag .n] s t

/-- RTI after a PushFrame BRK returns to BRK address + 2 with P as before but B clear, and restores SP. Derived from
49_system.md R240 and R241, 92_eei_decisions.md D5, 92_eei_decisions.md D7. Both are the spec's own choices (D5, D7,
D23; log entry 3). -/
def Obligations.RtiAfterAFramedBreakReturns : Prop :=
  ∀ (addr : Word) (s : State), ∃ u, exec .rti (takeBreak .pushFrame (s.setPC (addr + 1))) = .next u ∧
    u.pc = addr + 2 ∧ u.flag .b = false ∧
    StoresOnlyAt [stackAddr s.sp, stackAddr (s.sp - 1), stackAddr (s.sp - 2)] s u ∧ Frame [.pc, .mem, .flag .b] s u

/-- NOP only advances PC past its opcode byte. Formalises R242. -/
def Obligations.NopChangesOnlyPc : Prop :=
  ∀ s : State, decode [0xEA] = .ok (.nop, []) ∧ exec .nop s = .next s ∧
    (s.nextOpcode = 0xEA → step s = .next { s with pc := s.pc + 1 })

/-- No instruction changes a flag unless the rule of that flag lists it as a writer. Derived from R26, R27, R28, R29,
R30, R32, R33. The lists contain the spec's own choices (D4, D5, D8, D9, D13, D18; log entry 3). -/
def Obligations.OnlyItsWritersChangeAFlag : Prop :=
  ∀ (i : Instr) (s t : State) (f : Flag), exec i s = .next t → i.mnemonic ∉ flagWriters f → t.flag f = s.flag f

/-- A flag has no influence on any instruction but those its rule lists as readers: D alters no arithmetic, I masks
nothing. Derived from R26, R27, R28, R29, R30, R32, R33, R133. The lists contain the spec's own choices (D4, D5, D8,
D9, D13, D18; log entries 3 and 4). -/
def Obligations.OnlyItsReadersDependOnAFlag : Prop :=
  ∀ (i : Instr) (s t : State) (f : Flag) (on : Bool), exec i s = .next t → i.mnemonic ∉ flagReaders f →
    ∃ u, exec i (s.setFlag f on) = .next u ∧ Frame [.flag f] t u ∧
      (i.mnemonic ∈ flagWriters f → u.flag f = t.flag f)

/-- No instruction changes A, X, Y, SP or PC unless the rule of that register lists it as a writer. Derived from R21,
R22, R23, R117. The lists contain the spec's own choices (D4, D5, D7; log entry 3), and R117 is marked '[derived: from
rules R100 and R101]'. -/
def Obligations.OnlyTheirWritersChangeTheRegisters : Prop :=
  ∀ (i : Instr) (s t : State), exec i s = .next t →
    (¬writesA i → t.a = s.a) ∧
    (i.mnemonic ∉ [Mnemonic.ldx, .tax, .inx, .dex, .tsx] → t.x = s.x) ∧
    (i.mnemonic ∉ [Mnemonic.ldy, .tay, .iny, .dey] → t.y = s.y) ∧
    (¬writesSP i → t.sp = s.sp) ∧
    (transfersControl i s = false → t.pc = s.pc)

/-- No instruction changes a byte of memory but at the addresses it stores to. Derived from R52, R57, R183, R211,
R240. The stack bytes (D10) and the frame of BRK (D7) are the spec's own choices (log entry 3). -/
def Obligations.OnlyStoredBytesChange : Prop :=
  ∀ (i : Instr) (s t : State), exec i s = .next t → StoresOnlyAt (storedAt i s) s t
end

