-- ==== Sys2Proof/Laws/Memory.lean ====
section
/-! SUPPORT. The laws of memory: what a byte reads as after each operation, and that each operation keeps the canonical
form. The read laws hold of every list of cells, in canonical form or not. -/

namespace Sys2Proof.Machine

theorem Memory.read_erase (m : Memory) (a b : Nat) :
    Memory.read (Memory.erase m a) b = if b = a then Memory.unlisted else Memory.read m b := by
  induction m with
  | nil => simp [Memory.erase, Memory.read]
  | cons c m ih =>
    by_cases hc : c.1 = a
    · by_cases hb : b = a
      · subst hb
        simpa [Memory.erase, hc] using ih
      · have hcb : ¬c.1 = b := fun h => hb (h.symm.trans hc)
        simp [Memory.erase, Memory.read, hc, ih, hb, Ne.symm (a := b) (b := a) hb]
    · by_cases hcb : c.1 = b
      · have hb : ¬b = a := fun h => hc (hcb.trans h)
        simp [Memory.erase, Memory.read, hcb, hb]
      · simp [Memory.erase, Memory.read, hc, hcb, ih]

theorem Memory.read_insert (m : Memory) (a b : Nat) (v : Byte) (hfresh : ∀ c ∈ m, c.1 ≠ a) :
    Memory.read (Memory.insert m a v) b = if b = a then v else Memory.read m b := by
  induction m with
  | nil =>
    by_cases hb : b = a
    · simp [Memory.insert, Memory.read, hb]
    · simp [Memory.insert, Memory.read, hb, Ne.symm (a := b) (b := a) hb]
  | cons c m ih =>
    have hc : ¬c.1 = a := hfresh c (by simp)
    have htail : ∀ d ∈ m, d.1 ≠ a := fun d hd => hfresh d (by simp [hd])
    unfold Memory.insert
    split
    · by_cases hb : b = a
      · simp [Memory.read, hb]
      · simp [Memory.read, hb, Ne.symm (a := b) (b := a) hb]
    · by_cases hcb : c.1 = b
      · have hb : ¬b = a := fun e => hc (hcb.trans e)
        simp [Memory.read, hcb, hb]
      · simp [Memory.read, hcb, ih htail]

theorem Memory.erase_fresh (m : Memory) (a : Nat) : ∀ c ∈ Memory.erase m a, c.1 ≠ a := by
  induction m with
  | nil => simp [Memory.erase]
  | cons c m ih =>
    by_cases hc : c.1 = a
    · simpa [Memory.erase, hc] using ih
    · intro d hd
      simp only [Memory.erase, hc, if_false, List.mem_cons] at hd
      rcases hd with rfl | hd
      · exact hc
      · exact ih d hd

/-- A byte reads as the last value written to it; every other byte is as before (`20_memory.md` R52, R56). -/
theorem Memory.read_write (m : Memory) (a b : Nat) (v : Byte) :
    Memory.read (Memory.write m a v) b = if b = a then v else Memory.read m b := by
  unfold Memory.write
  split
  · rename_i hv
    rw [Memory.read_erase, hv]
  · rw [Memory.read_insert _ _ _ _ (Memory.erase_fresh m a), Memory.read_erase]
    split <;> rfl

theorem Memory.wfFrom_cons (c : Host.Cell) (m : Memory) (lo : Nat) :
    Memory.wfFrom (c :: m) lo = true ↔
      lo ≤ c.1 ∧ c.1 < 65536 ∧ c.2 ≠ Memory.unlisted ∧ Memory.wfFrom m (c.1 + 1) = true := by
  simp [Memory.wfFrom, and_assoc]

theorem Memory.wfFrom_mono (m : Memory) {lo lo' : Nat} (h : lo' ≤ lo) (hm : Memory.wfFrom m lo = true) :
    Memory.wfFrom m lo' = true := by
  cases m with
  | nil => rfl
  | cons c m =>
    rw [Memory.wfFrom_cons] at hm ⊢
    exact ⟨le_trans h hm.1, hm.2⟩

/-- An address below the form's bound is not listed. -/
theorem Memory.read_below (m : Memory) {lo a : Nat} (hm : Memory.wfFrom m lo = true) (ha : a < lo) :
    Memory.read m a = Memory.unlisted := by
  induction m generalizing lo with
  | nil => rfl
  | cons c m ih =>
    rw [Memory.wfFrom_cons] at hm
    have hne : ¬c.1 = a := by omega
    simp only [Memory.read, hne, if_false]
    exact ih hm.2.2.2 (by omega)

theorem Memory.wfFrom_erase (m : Memory) {lo : Nat} (a : Nat) (hm : Memory.wfFrom m lo = true) :
    Memory.wfFrom (Memory.erase m a) lo = true := by
  induction m generalizing lo with
  | nil => rfl
  | cons c m ih =>
    rw [Memory.wfFrom_cons] at hm
    unfold Memory.erase
    split
    · exact ih (Memory.wfFrom_mono m (by omega) hm.2.2.2)
    · rw [Memory.wfFrom_cons]
      exact ⟨hm.1, hm.2.1, hm.2.2.1, ih hm.2.2.2⟩

theorem Memory.wfFrom_insert (m : Memory) {lo a : Nat} {v : Byte} (hm : Memory.wfFrom m lo = true)
    (hlo : lo ≤ a) (ha : a < 65536) (hv : v ≠ Memory.unlisted) (hfresh : ∀ c ∈ m, c.1 ≠ a) :
    Memory.wfFrom (Memory.insert m a v) lo = true := by
  induction m generalizing lo with
  | nil => exact (Memory.wfFrom_cons _ _ _).2 ⟨hlo, ha, hv, rfl⟩
  | cons c m ih =>
    have hc : c.1 ≠ a := hfresh c (by simp)
    rw [Memory.wfFrom_cons] at hm
    unfold Memory.insert
    split
    · rename_i hlt
      refine (Memory.wfFrom_cons _ _ _).2 ⟨hlo, ha, hv, ?_⟩
      exact (Memory.wfFrom_cons _ _ _).2 ⟨hlt, hm.2⟩
    · refine (Memory.wfFrom_cons _ _ _).2 ⟨hm.1, hm.2.1, hm.2.2.1, ?_⟩
      exact ih hm.2.2.2 (by omega) fun d hd => hfresh d (by simp [hd])

/-- A write of a byte of the address space keeps the canonical form. -/
theorem Memory.wf_write (m : Memory) {a : Nat} (v : Byte) (hm : Memory.wf m = true) (ha : a < 65536) :
    Memory.wf (Memory.write m a v) = true := by
  unfold Memory.write Memory.wf at *
  split
  · exact Memory.wfFrom_erase m a hm
  · rename_i hv
    exact Memory.wfFrom_insert _ (Memory.wfFrom_erase m a hm) (Nat.zero_le a) ha hv (Memory.erase_fresh m a)

theorem State.wf_writeMem (s : State) (addr : Word) (v : Byte) (h : Memory.wf s.mem = true) :
    Memory.wf (s.writeMem addr v).mem = true :=
  Memory.wf_write s.mem v h addr.isLt

theorem Memory.wf_nil : Memory.wf [] = true := rfl

end Sys2Proof.Machine
end

