-- ==== Sys2Proof/Laws/State.lean ====
section
/-! SUPPORT. One lemma for each field of State and each update of it, so that no proof unfolds a record update; and what
each read (`readMem`, `status`, `flag`, `readWord`) sees after each update. -/

namespace Sys2Proof.Machine

variable (s : State)

@[simp] theorem State.setA_a (v : Byte) : (s.setA v).a = v := rfl
@[simp] theorem State.setA_x (v : Byte) : (s.setA v).x = s.x := rfl
@[simp] theorem State.setA_y (v : Byte) : (s.setA v).y = s.y := rfl
@[simp] theorem State.setA_sp (v : Byte) : (s.setA v).sp = s.sp := rfl
@[simp] theorem State.setA_pc (v : Byte) : (s.setA v).pc = s.pc := rfl
@[simp] theorem State.setA_p (v : Byte) : (s.setA v).p = s.p := rfl
@[simp] theorem State.setA_mem (v : Byte) : (s.setA v).mem = s.mem := rfl

@[simp] theorem State.setX_a (v : Byte) : (s.setX v).a = s.a := rfl
@[simp] theorem State.setX_x (v : Byte) : (s.setX v).x = v := rfl
@[simp] theorem State.setX_y (v : Byte) : (s.setX v).y = s.y := rfl
@[simp] theorem State.setX_sp (v : Byte) : (s.setX v).sp = s.sp := rfl
@[simp] theorem State.setX_pc (v : Byte) : (s.setX v).pc = s.pc := rfl
@[simp] theorem State.setX_p (v : Byte) : (s.setX v).p = s.p := rfl
@[simp] theorem State.setX_mem (v : Byte) : (s.setX v).mem = s.mem := rfl

@[simp] theorem State.setY_a (v : Byte) : (s.setY v).a = s.a := rfl
@[simp] theorem State.setY_x (v : Byte) : (s.setY v).x = s.x := rfl
@[simp] theorem State.setY_y (v : Byte) : (s.setY v).y = v := rfl
@[simp] theorem State.setY_sp (v : Byte) : (s.setY v).sp = s.sp := rfl
@[simp] theorem State.setY_pc (v : Byte) : (s.setY v).pc = s.pc := rfl
@[simp] theorem State.setY_p (v : Byte) : (s.setY v).p = s.p := rfl
@[simp] theorem State.setY_mem (v : Byte) : (s.setY v).mem = s.mem := rfl

@[simp] theorem State.setSP_a (v : Byte) : (s.setSP v).a = s.a := rfl
@[simp] theorem State.setSP_x (v : Byte) : (s.setSP v).x = s.x := rfl
@[simp] theorem State.setSP_y (v : Byte) : (s.setSP v).y = s.y := rfl
@[simp] theorem State.setSP_sp (v : Byte) : (s.setSP v).sp = v := rfl
@[simp] theorem State.setSP_pc (v : Byte) : (s.setSP v).pc = s.pc := rfl
@[simp] theorem State.setSP_p (v : Byte) : (s.setSP v).p = s.p := rfl
@[simp] theorem State.setSP_mem (v : Byte) : (s.setSP v).mem = s.mem := rfl

@[simp] theorem State.setPC_a (w : Word) : (s.setPC w).a = s.a := rfl
@[simp] theorem State.setPC_x (w : Word) : (s.setPC w).x = s.x := rfl
@[simp] theorem State.setPC_y (w : Word) : (s.setPC w).y = s.y := rfl
@[simp] theorem State.setPC_sp (w : Word) : (s.setPC w).sp = s.sp := rfl
@[simp] theorem State.setPC_pc (w : Word) : (s.setPC w).pc = w := rfl
@[simp] theorem State.setPC_p (w : Word) : (s.setPC w).p = s.p := rfl
@[simp] theorem State.setPC_mem (w : Word) : (s.setPC w).mem = s.mem := rfl

@[simp] theorem State.setStatus_a (v : Byte) : (s.setStatus v).a = s.a := rfl
@[simp] theorem State.setStatus_x (v : Byte) : (s.setStatus v).x = s.x := rfl
@[simp] theorem State.setStatus_y (v : Byte) : (s.setStatus v).y = s.y := rfl
@[simp] theorem State.setStatus_sp (v : Byte) : (s.setStatus v).sp = s.sp := rfl
@[simp] theorem State.setStatus_pc (v : Byte) : (s.setStatus v).pc = s.pc := rfl
@[simp] theorem State.setStatus_p (v : Byte) : (s.setStatus v).p = v ||| hardwiredOne := rfl
@[simp] theorem State.setStatus_mem (v : Byte) : (s.setStatus v).mem = s.mem := rfl

@[simp] theorem State.writeMem_a (addr : Word) (v : Byte) : (s.writeMem addr v).a = s.a := rfl
@[simp] theorem State.writeMem_x (addr : Word) (v : Byte) : (s.writeMem addr v).x = s.x := rfl
@[simp] theorem State.writeMem_y (addr : Word) (v : Byte) : (s.writeMem addr v).y = s.y := rfl
@[simp] theorem State.writeMem_sp (addr : Word) (v : Byte) : (s.writeMem addr v).sp = s.sp := rfl
@[simp] theorem State.writeMem_pc (addr : Word) (v : Byte) : (s.writeMem addr v).pc = s.pc := rfl
@[simp] theorem State.writeMem_p (addr : Word) (v : Byte) : (s.writeMem addr v).p = s.p := rfl
@[simp] theorem State.writeMem_mem (addr : Word) (v : Byte) : (s.writeMem addr v).mem = Memory.write s.mem addr.toNat v := rfl

@[simp] theorem State.readMem_setA (v : Byte) (addr' : Word) : (s.setA v).readMem addr' = s.readMem addr' := rfl
@[simp] theorem State.readMem_setX (v : Byte) (addr' : Word) : (s.setX v).readMem addr' = s.readMem addr' := rfl
@[simp] theorem State.readMem_setY (v : Byte) (addr' : Word) : (s.setY v).readMem addr' = s.readMem addr' := rfl
@[simp] theorem State.readMem_setSP (v : Byte) (addr' : Word) : (s.setSP v).readMem addr' = s.readMem addr' := rfl
@[simp] theorem State.readMem_setPC (w : Word) (addr' : Word) : (s.setPC w).readMem addr' = s.readMem addr' := rfl
@[simp] theorem State.readMem_setStatus (v : Byte) (addr' : Word) : (s.setStatus v).readMem addr' = s.readMem addr' := rfl

@[simp] theorem State.readWord_setA (v : Byte) (lo hi : Word) : (s.setA v).readWord lo hi = s.readWord lo hi := rfl
@[simp] theorem State.readWord_setX (v : Byte) (lo hi : Word) : (s.setX v).readWord lo hi = s.readWord lo hi := rfl
@[simp] theorem State.readWord_setY (v : Byte) (lo hi : Word) : (s.setY v).readWord lo hi = s.readWord lo hi := rfl
@[simp] theorem State.readWord_setSP (v : Byte) (lo hi : Word) : (s.setSP v).readWord lo hi = s.readWord lo hi := rfl
@[simp] theorem State.readWord_setPC (w : Word) (lo hi : Word) : (s.setPC w).readWord lo hi = s.readWord lo hi := rfl
@[simp] theorem State.readWord_setStatus (v : Byte) (lo hi : Word) : (s.setStatus v).readWord lo hi = s.readWord lo hi := rfl

@[simp] theorem State.status_setA (v : Byte) : (s.setA v).status = s.status := rfl
@[simp] theorem State.flag_setA (v : Byte) (f : Flag) : (s.setA v).flag f = s.flag f := rfl
@[simp] theorem State.status_setX (v : Byte) : (s.setX v).status = s.status := rfl
@[simp] theorem State.flag_setX (v : Byte) (f : Flag) : (s.setX v).flag f = s.flag f := rfl
@[simp] theorem State.status_setY (v : Byte) : (s.setY v).status = s.status := rfl
@[simp] theorem State.flag_setY (v : Byte) (f : Flag) : (s.setY v).flag f = s.flag f := rfl
@[simp] theorem State.status_setSP (v : Byte) : (s.setSP v).status = s.status := rfl
@[simp] theorem State.flag_setSP (v : Byte) (f : Flag) : (s.setSP v).flag f = s.flag f := rfl
@[simp] theorem State.status_setPC (w : Word) : (s.setPC w).status = s.status := rfl
@[simp] theorem State.flag_setPC (w : Word) (f : Flag) : (s.setPC w).flag f = s.flag f := rfl
@[simp] theorem State.status_writeMem (addr : Word) (v : Byte) : (s.writeMem addr v).status = s.status := rfl
@[simp] theorem State.flag_writeMem (addr : Word) (v : Byte) (f : Flag) : (s.writeMem addr v).flag f = s.flag f := rfl

/-- A read after a write (`20_memory.md` R51, R52, R56). -/
theorem State.readMem_writeMem (addr addr' : Word) (v : Byte) :
    (s.writeMem addr v).readMem addr' = if addr' = addr then v else s.readMem addr' := by
  simp only [State.readMem, State.writeMem_mem, Memory.read_write, BitVec.toNat_inj]

@[simp] theorem State.readMem_writeMem_same (addr : Word) (v : Byte) : (s.writeMem addr v).readMem addr = v := by
  simp [State.readMem_writeMem]

theorem State.readMem_writeMem_other {addr addr' : Word} (v : Byte) (h : addr' ≠ addr) :
    (s.writeMem addr v).readMem addr' = s.readMem addr' := by
  simp [State.readMem_writeMem, h]

end Sys2Proof.Machine
end

