-- ==== Sys2Proof/Laws/Flags.lean ====
section
/-! SUPPORT. The laws of the status register: a flag read after a flag written, and what SetZN and the comparator
change. -/

namespace Sys2Proof.Machine

variable (s : State)

theorem Flag.bit_lt (f : Flag) : f.bit < 8 := by cases f <;> decide

theorem Flag.bit_ne_five (f : Flag) : f.bit ≠ 5 := by cases f <;> decide

theorem Flag.bit_inj {f g : Flag} : f.bit = g.bit ↔ f = g := by cases f <;> cases g <;> decide

theorem getLsbD_hardwiredOne (k : Nat) : hardwiredOne.getLsbD k = decide (k = 5) := by
  by_cases h : k < 8
  · interval_cases k <;> rfl
  · rw [BitVec.getLsbD_of_ge _ _ (by omega)]
    simp
    omega

theorem getLsbD_setBit (v : Byte) {n k : Nat} (on : Bool) (hk : k < 8) :
    (setBit v n on).getLsbD k = if k = n then on else v.getLsbD k := by
  cases on <;> by_cases h : k = n <;>
    simp [setBit, BitVec.getLsbD_or, BitVec.getLsbD_and, BitVec.getLsbD_not, BitVec.getLsbD_shiftLeft, h, hk] <;>
    omega

/-- A flag is a bit of the stored P: bit 5 is no flag. -/
theorem State.flag_eq (f : Flag) : s.flag f = s.p.getLsbD f.bit := by
  simp [State.flag, State.status, BitVec.getLsbD_or, getLsbD_hardwiredOne, f.bit_ne_five]

theorem State.flag_setStatus (v : Byte) (f : Flag) : (s.setStatus v).flag f = v.getLsbD f.bit := by
  simp [State.flag_eq, BitVec.getLsbD_or, getLsbD_hardwiredOne, f.bit_ne_five]

/-- A flag reads as the last value written to it; the others are as before. -/
theorem State.flag_setFlag (f g : Flag) (on : Bool) :
    (s.setFlag f on).flag g = if g = f then on else s.flag g := by
  simp only [State.setFlag, State.flag_setStatus, getLsbD_setBit _ on g.bit_lt, Flag.bit_inj]
  rfl

@[simp] theorem State.setFlag_a (f : Flag) (on : Bool) : (s.setFlag f on).a = s.a := rfl
@[simp] theorem State.setFlag_x (f : Flag) (on : Bool) : (s.setFlag f on).x = s.x := rfl
@[simp] theorem State.setFlag_y (f : Flag) (on : Bool) : (s.setFlag f on).y = s.y := rfl
@[simp] theorem State.setFlag_sp (f : Flag) (on : Bool) : (s.setFlag f on).sp = s.sp := rfl
@[simp] theorem State.setFlag_pc (f : Flag) (on : Bool) : (s.setFlag f on).pc = s.pc := rfl
@[simp] theorem State.setFlag_mem (f : Flag) (on : Bool) : (s.setFlag f on).mem = s.mem := rfl
@[simp] theorem State.readMem_setFlag (f : Flag) (on : Bool) (addr : Word) : (s.setFlag f on).readMem addr = s.readMem addr := rfl
@[simp] theorem State.readWord_setFlag (f : Flag) (on : Bool) (lo hi : Word) : (s.setFlag f on).readWord lo hi = s.readWord lo hi := rfl

/-- SetZN (`10_state.md` R34) on each flag. -/
theorem State.flag_setZN (v : Byte) (f : Flag) :
    (s.setZN v).flag f = if f = .n then v.getLsbD 7 else if f = .z then v == 0 else s.flag f := by
  simp only [State.setZN, State.flag_setFlag]

@[simp] theorem State.setZN_a (v : Byte) : (s.setZN v).a = s.a := rfl
@[simp] theorem State.setZN_x (v : Byte) : (s.setZN v).x = s.x := rfl
@[simp] theorem State.setZN_y (v : Byte) : (s.setZN v).y = s.y := rfl
@[simp] theorem State.setZN_sp (v : Byte) : (s.setZN v).sp = s.sp := rfl
@[simp] theorem State.setZN_pc (v : Byte) : (s.setZN v).pc = s.pc := rfl
@[simp] theorem State.setZN_mem (v : Byte) : (s.setZN v).mem = s.mem := rfl
@[simp] theorem State.readMem_setZN (v : Byte) (addr : Word) : (s.setZN v).readMem addr = s.readMem addr := rfl
@[simp] theorem State.readWord_setZN (v : Byte) (lo hi : Word) : (s.setZN v).readWord lo hi = s.readWord lo hi := rfl

/-- Every write of a flag or of the whole of P stores bit 5 as 1 (`10_state.md` R31). -/
theorem State.setStatus_bit5 (v : Byte) : (s.setStatus v).p.getLsbD 5 = true := by
  simp [getLsbD_hardwiredOne]

theorem State.setFlag_bit5 (f : Flag) (on : Bool) : (s.setFlag f on).p.getLsbD 5 = true := State.setStatus_bit5 s _

theorem State.setZN_bit5 (v : Byte) : (s.setZN v).p.getLsbD 5 = true := State.setFlag_bit5 _ _ _

/-- Two states with the same registers, memory, flags and stored bit 5 are the same state. -/
theorem State.ext_flags {s t : State} (ha : s.a = t.a) (hx : s.x = t.x) (hy : s.y = t.y) (hsp : s.sp = t.sp)
    (hpc : s.pc = t.pc) (hmem : s.mem = t.mem) (hf : ∀ f, s.flag f = t.flag f)
    (h5 : s.p.getLsbD 5 = t.p.getLsbD 5) : s = t := by
  have hp : s.p = t.p := by
    apply BitVec.eq_of_getLsbD_eq
    intro i hi
    have := hf .c; have := hf .z; have := hf .i; have := hf .d; have := hf .b; have := hf .v; have := hf .n
    simp only [State.flag_eq, Flag.bit] at *
    interval_cases i <;> assumption
  cases s; cases t
  simp_all

@[simp] theorem writeAZN_a (v : Byte) : (writeAZN v s).a = v := rfl
@[simp] theorem writeXZN_a (v : Byte) : (writeXZN v s).a = s.a := rfl
@[simp] theorem writeYZN_a (v : Byte) : (writeYZN v s).a = s.a := rfl
@[simp] theorem writeAZN_x (v : Byte) : (writeAZN v s).x = s.x := rfl
@[simp] theorem writeXZN_x (v : Byte) : (writeXZN v s).x = v := rfl
@[simp] theorem writeYZN_x (v : Byte) : (writeYZN v s).x = s.x := rfl
@[simp] theorem writeAZN_y (v : Byte) : (writeAZN v s).y = s.y := rfl
@[simp] theorem writeXZN_y (v : Byte) : (writeXZN v s).y = s.y := rfl
@[simp] theorem writeYZN_y (v : Byte) : (writeYZN v s).y = v := rfl
@[simp] theorem writeAZN_sp (v : Byte) : (writeAZN v s).sp = s.sp := rfl
@[simp] theorem writeXZN_sp (v : Byte) : (writeXZN v s).sp = s.sp := rfl
@[simp] theorem writeYZN_sp (v : Byte) : (writeYZN v s).sp = s.sp := rfl
@[simp] theorem writeAZN_pc (v : Byte) : (writeAZN v s).pc = s.pc := rfl
@[simp] theorem writeXZN_pc (v : Byte) : (writeXZN v s).pc = s.pc := rfl
@[simp] theorem writeYZN_pc (v : Byte) : (writeYZN v s).pc = s.pc := rfl
@[simp] theorem writeAZN_mem (v : Byte) : (writeAZN v s).mem = s.mem := rfl
@[simp] theorem writeXZN_mem (v : Byte) : (writeXZN v s).mem = s.mem := rfl
@[simp] theorem writeYZN_mem (v : Byte) : (writeYZN v s).mem = s.mem := rfl

theorem flag_writeAZN (v : Byte) (f : Flag) :
    (writeAZN v s).flag f = if f = .n then v.getLsbD 7 else if f = .z then v == 0 else s.flag f := by
  simp [writeAZN, State.flag_setZN]

theorem flag_writeXZN (v : Byte) (f : Flag) :
    (writeXZN v s).flag f = if f = .n then v.getLsbD 7 else if f = .z then v == 0 else s.flag f := by
  simp [writeXZN, State.flag_setZN]

theorem flag_writeYZN (v : Byte) (f : Flag) :
    (writeYZN v s).flag f = if f = .n then v.getLsbD 7 else if f = .z then v == 0 else s.flag f := by
  simp [writeYZN, State.flag_setZN]

/-- The comparator (`44_compare.md` R160) on each flag. -/
theorem flag_compare (reg m : Byte) (f : Flag) :
    (compare reg m s).flag f = if f = .n then (reg - m).getLsbD 7 else if f = .z then reg - m == 0
      else if f = .c then decide (m.toNat ≤ reg.toNat) else s.flag f := by
  simp only [compare, State.flag_setZN, State.flag_setFlag]

@[simp] theorem compare_a (reg m : Byte) : (compare reg m s).a = s.a := rfl
@[simp] theorem compare_x (reg m : Byte) : (compare reg m s).x = s.x := rfl
@[simp] theorem compare_y (reg m : Byte) : (compare reg m s).y = s.y := rfl
@[simp] theorem compare_sp (reg m : Byte) : (compare reg m s).sp = s.sp := rfl
@[simp] theorem compare_pc (reg m : Byte) : (compare reg m s).pc = s.pc := rfl
@[simp] theorem compare_mem (reg m : Byte) : (compare reg m s).mem = s.mem := rfl

@[simp] theorem readMem_writeAZN (v : Byte) (addr : Word) : (writeAZN v s).readMem addr = s.readMem addr := by
  simp [State.readMem]

@[simp] theorem readMem_writeXZN (v : Byte) (addr : Word) : (writeXZN v s).readMem addr = s.readMem addr := by
  simp [State.readMem]

@[simp] theorem readMem_writeYZN (v : Byte) (addr : Word) : (writeYZN v s).readMem addr = s.readMem addr := by
  simp [State.readMem]

@[simp] theorem readMem_compare (reg m : Byte) (addr : Word) : (compare reg m s).readMem addr = s.readMem addr := by
  simp [State.readMem]

end Sys2Proof.Machine
end

