-- ==== Sys2Proof/Laws/Ops.lean ====
section
/-! SUPPORT. The laws of words, of the stack, of Reset and of the trap entry and return. -/

namespace Sys2Proof

theorem toNat_wordOf (hi lo : Byte) : (wordOf hi lo).toNat = hi.toNat * 256 + lo.toNat := by
  have := lo.isLt
  simp only [wordOf, BitVec.toNat_append, Nat.shiftLeft_eq]
  rw [← Nat.shiftLeft_eq, ← Nat.shiftLeft_add_eq_or_of_lt this, Nat.shiftLeft_eq]

theorem toNat_loByte (w : Word) : (loByte w).toNat = w.toNat % 256 := by
  simp [loByte]

theorem toNat_hiByte (w : Word) : (hiByte w).toNat = w.toNat / 256 := by
  have := w.isLt
  simp [hiByte, Nat.shiftRight_eq_div_pow]
  omega

/-- A word is its two bytes (`00_scope.md` R8). -/
@[simp] theorem wordOf_hiByte_loByte (w : Word) : wordOf (hiByte w) (loByte w) = w := by
  apply BitVec.eq_of_toNat_eq
  rw [toNat_wordOf, toNat_hiByte, toNat_loByte]
  omega

@[simp] theorem loByte_wordOf (hi lo : Byte) : loByte (wordOf hi lo) = lo := by
  apply BitVec.eq_of_toNat_eq
  have := lo.isLt
  rw [toNat_loByte, toNat_wordOf]
  omega

@[simp] theorem hiByte_wordOf (hi lo : Byte) : hiByte (wordOf hi lo) = hi := by
  apply BitVec.eq_of_toNat_eq
  have := lo.isLt
  rw [toNat_hiByte, toNat_wordOf]
  omega

theorem toNat_zext16 (b : Byte) : (zext16 b).toNat = b.toNat := by
  have := b.isLt
  simp [zext16]
  omega

end Sys2Proof

namespace Sys2Proof.Machine

variable (s : State)

theorem toNat_stackAddr (sp : Byte) : (stackAddr sp).toNat = 256 + sp.toNat := by
  have := sp.isLt
  simp only [stackAddr, BitVec.toNat_add, toNat_zext16]
  simp
  omega

/-- Two stack pointers name the same byte only if they are equal. -/
theorem stackAddr_inj {p q : Byte} : stackAddr p = stackAddr q ↔ p = q := by
  rw [← BitVec.toNat_inj, toNat_stackAddr, toNat_stackAddr, ← BitVec.toNat_inj]
  omega

/-- A stack byte is no byte outside page 1 (`10_state.md` R35). -/
theorem ne_stackAddr {w : Word} (sp : Byte) (h : w.toNat < 256 ∨ 512 ≤ w.toNat) : w ≠ stackAddr sp := by
  intro e
  have := sp.isLt
  rw [e, toNat_stackAddr] at h
  omega

@[simp] theorem State.push_a (v : Byte) : (s.push v).a = s.a := rfl
@[simp] theorem State.push_x (v : Byte) : (s.push v).x = s.x := rfl
@[simp] theorem State.push_y (v : Byte) : (s.push v).y = s.y := rfl
@[simp] theorem State.push_sp (v : Byte) : (s.push v).sp = s.sp - 1 := rfl
@[simp] theorem State.push_pc (v : Byte) : (s.push v).pc = s.pc := rfl
@[simp] theorem State.push_mem (v : Byte) : (s.push v).mem = Memory.write s.mem (stackAddr s.sp).toNat v := rfl
@[simp] theorem State.push_p (v : Byte) : (s.push v).p = s.p := rfl
@[simp] theorem State.status_push (v : Byte) : (s.push v).status = s.status := rfl
@[simp] theorem State.flag_push (v : Byte) (f : Flag) : (s.push v).flag f = s.flag f := rfl

theorem State.readMem_push (v : Byte) (addr : Word) :
    (s.push v).readMem addr = if addr = stackAddr s.sp then v else s.readMem addr := by
  simp [State.push, State.readMem_writeMem]

@[simp] theorem State.pull_snd_a : s.pull.2.a = s.a := rfl
@[simp] theorem State.pull_snd_x : s.pull.2.x = s.x := rfl
@[simp] theorem State.pull_snd_y : s.pull.2.y = s.y := rfl
@[simp] theorem State.pull_snd_sp : s.pull.2.sp = s.sp + 1 := rfl
@[simp] theorem State.pull_snd_pc : s.pull.2.pc = s.pc := rfl
@[simp] theorem State.pull_snd_mem : s.pull.2.mem = s.mem := rfl
@[simp] theorem State.pull_snd_p : s.pull.2.p = s.p := rfl
@[simp] theorem State.pull_fst : s.pull.1 = s.readMem (stackAddr (s.sp + 1)) := rfl
@[simp] theorem State.readMem_pull (addr : Word) : s.pull.2.readMem addr = s.readMem addr := rfl
@[simp] theorem State.status_pull : s.pull.2.status = s.status := rfl
@[simp] theorem State.flag_pull (f : Flag) : s.pull.2.flag f = s.flag f := rfl

@[simp] theorem performReset_mem : (performReset s).mem = s.mem := rfl
@[simp] theorem performReset_pc : (performReset s).pc = s.readWord 0xFFFC 0xFFFD := rfl

/-- What a status byte pulled by PLP or RTI makes of each flag (`48_stack_flag.md` R223): B is cleared, every other flag
is its bit. -/
theorem getLsbD_pulledStatus (v : Byte) (f : Flag) :
    (pulledStatus v).getLsbD f.bit = if f = .b then false else v.getLsbD f.bit := by
  cases f <;> simp [pulledStatus, Flag.bit]

/-- The entry with a frame is the entry without one, from the state after the frame is pushed (`49_system.md` R240). -/
theorem takeBreak_pushFrame : takeBreak .pushFrame s = takeBreak .vectorOnly (pushBreakFrame s) := rfl

@[simp] theorem takeBreak_vectorOnly_a : (takeBreak .vectorOnly s).a = s.a := rfl
@[simp] theorem takeBreak_vectorOnly_x : (takeBreak .vectorOnly s).x = s.x := rfl
@[simp] theorem takeBreak_vectorOnly_y : (takeBreak .vectorOnly s).y = s.y := rfl
@[simp] theorem takeBreak_vectorOnly_sp : (takeBreak .vectorOnly s).sp = s.sp := rfl
@[simp] theorem takeBreak_vectorOnly_mem : (takeBreak .vectorOnly s).mem = s.mem := rfl
@[simp] theorem takeBreak_vectorOnly_pc : (takeBreak .vectorOnly s).pc = s.readWord 0xFFFE 0xFFFF := rfl

theorem flag_takeBreak_vectorOnly (f : Flag) :
    (takeBreak .vectorOnly s).flag f = if f = .i then true else if f = .b then true else s.flag f := by
  simp only [takeBreak, State.flag_setPC, State.flag_setFlag]

theorem pushBreakFrame_sp : (pushBreakFrame s).sp = s.sp - 3 := by
  simp only [pushBreakFrame, State.push_sp]
  rw [BitVec.sub_sub, BitVec.sub_sub]
  rfl

@[simp] theorem flag_pushBreakFrame (f : Flag) : (pushBreakFrame s).flag f = s.flag f := by
  simp only [pushBreakFrame, State.flag_push]
@[simp] theorem pushBreakFrame_a : (pushBreakFrame s).a = s.a := by simp only [pushBreakFrame, State.push_a]
@[simp] theorem pushBreakFrame_x : (pushBreakFrame s).x = s.x := by simp only [pushBreakFrame, State.push_x]
@[simp] theorem pushBreakFrame_y : (pushBreakFrame s).y = s.y := by simp only [pushBreakFrame, State.push_y]
@[simp] theorem pushBreakFrame_pc : (pushBreakFrame s).pc = s.pc := by simp only [pushBreakFrame, State.push_pc]

theorem readMem_pushBreakFrame (addr : Word) : (pushBreakFrame s).readMem addr =
    if addr = stackAddr (s.sp - 1 - 1) then pushedStatus s else if addr = stackAddr (s.sp - 1) then loByte (s.pc + 1)
      else if addr = stackAddr s.sp then hiByte (s.pc + 1) else s.readMem addr := by
  simp only [pushBreakFrame, State.readMem_push, State.push_sp]

@[simp] theorem takeBreak_a (mode : Config.BrkMode) : (takeBreak mode s).a = s.a := by
  cases mode
  · exact takeBreak_vectorOnly_a s
  · rw [takeBreak_pushFrame, takeBreak_vectorOnly_a, pushBreakFrame_a]

@[simp] theorem takeBreak_x (mode : Config.BrkMode) : (takeBreak mode s).x = s.x := by
  cases mode
  · exact takeBreak_vectorOnly_x s
  · rw [takeBreak_pushFrame, takeBreak_vectorOnly_x, pushBreakFrame_x]

@[simp] theorem takeBreak_y (mode : Config.BrkMode) : (takeBreak mode s).y = s.y := by
  cases mode
  · exact takeBreak_vectorOnly_y s
  · rw [takeBreak_pushFrame, takeBreak_vectorOnly_y, pushBreakFrame_y]

/-- Both modes set B and I and keep every other flag. -/
theorem flag_takeBreak (mode : Config.BrkMode) (f : Flag) :
    (takeBreak mode s).flag f = if f = .i then true else if f = .b then true else s.flag f := by
  cases mode
  · exact flag_takeBreak_vectorOnly s f
  · rw [takeBreak_pushFrame, flag_takeBreak_vectorOnly, flag_pushBreakFrame]

@[simp] theorem readMem_takeBreak_vectorOnly (addr : Word) : (takeBreak .vectorOnly s).readMem addr = s.readMem addr := rfl

/-- The frame lies in page 1, so both modes take PC from the vector as it stood before. -/
theorem takeBreak_pc (mode : Config.BrkMode) : (takeBreak mode s).pc = s.readWord 0xFFFE 0xFFFF := by
  have out : ∀ (w : Word) (q : Byte), 512 ≤ w.toNat → w ≠ stackAddr q := fun w q h => ne_stackAddr q (.inr h)
  cases mode
  · exact takeBreak_vectorOnly_pc s
  · rw [takeBreak_pushFrame, takeBreak_vectorOnly_pc]
    simp only [State.readWord, readMem_pushBreakFrame, out 0xFFFE _ (by decide), out 0xFFFF _ (by decide), if_false]

/-- RTI (`49_system.md` R241) on each flag, PC, SP and memory. -/
theorem flag_returnFromInterrupt (f : Flag) :
    (returnFromInterrupt s).flag f = if f = .b then false else (s.readMem (stackAddr (s.sp + 1))).getLsbD f.bit := by
  simp only [returnFromInterrupt, State.flag_setPC, State.flag_pull, State.flag_setStatus, getLsbD_pulledStatus,
    State.pull_fst]

@[simp] theorem returnFromInterrupt_sp : (returnFromInterrupt s).sp = s.sp + 1 + 1 + 1 := rfl
@[simp] theorem returnFromInterrupt_mem : (returnFromInterrupt s).mem = s.mem := by simp [returnFromInterrupt]
@[simp] theorem returnFromInterrupt_a : (returnFromInterrupt s).a = s.a := by simp [returnFromInterrupt]
@[simp] theorem returnFromInterrupt_x : (returnFromInterrupt s).x = s.x := by simp [returnFromInterrupt]
@[simp] theorem returnFromInterrupt_y : (returnFromInterrupt s).y = s.y := by simp [returnFromInterrupt]

theorem returnFromInterrupt_pc : (returnFromInterrupt s).pc =
    wordOf (s.readMem (stackAddr (s.sp + 1 + 1 + 1))) (s.readMem (stackAddr (s.sp + 1 + 1))) := rfl

end Sys2Proof.Machine
end

