-- ==== Sys2Proof/Laws/Decode.lean ====
section
/-! SUPPORT. The decoder's map (`30_encoding.md` R84) held against the lists of R83, R85 and R86, over all 256 opcode
bytes. -/

namespace Sys2Proof

/-- The bytes a form stands for are, by the encoder (R85), this opcode byte and the operand bytes. -/
def EncodesTo (op : Byte) : Option Form → Prop
  | none => True
  | some (.i1 i) => encode i = [op]
  | some (.b2 k) => ∀ b, encode (k b) = [op, b]
  | some (.w3 k) => ∀ w, encode (k w) = [op, loByte w, hiByte w]

/-- The map of R84 and the opcodes of R85 agree. -/
theorem opcodeForm_encodesTo (op : Byte) : EncodesTo op (opcodeForm op) := by
  have h : op = BitVec.ofNat 8 op.toNat := by simp
  have hn : op.toNat < 256 := op.isLt
  generalize op.toNat = n at h hn
  subst h
  interval_cases n <;> first | exact True.intro | exact (rfl : encode _ = _) | exact fun _ => rfl

/-- The `--` cells of R84 are the bytes R86 lists. -/
theorem opcodeForm_eq_none_iff : ∀ op : Byte, opcodeForm op = none ↔ op ∈ unassignedOpcodes := by
  decide +kernel

/-- The map of R84 and the length lists of R83 agree. -/
theorem opcodeLength_eq : ∀ op : Byte, opcodeLength op = match opcodeForm op with
    | none => none
    | some (.i1 _) => some 1
    | some (.b2 _) => some 2
    | some (.w3 _) => some 3 := by
  decide +kernel

/-- An instruction is one byte longer than its field. -/
theorem length_encode (i : Instr) : (encode i).length = i.length := by
  cases h : i.field <;> simp [encode, Instr.length, Field.width, Field.bytes, h]

end Sys2Proof
end

