-- ==== Sys2Proof/Laws/Shared.lean ====
section
/-! SUPPORT. One group of lemmas for each operation the meanings share: every field it gives and every flag. Provers cite
these and do not unfold the operation. -/

namespace Sys2Proof.Machine

variable (s : State)

-- Reads of memory do not see a change of a flag or of a register.

@[simp] theorem zeroPagePointer_setA (wrap : Bool) (q : Byte) (v : Byte) : zeroPagePointer wrap q (s.setA v) = zeroPagePointer wrap q s := rfl
@[simp] theorem zeroPagePointer_setX (wrap : Bool) (q : Byte) (v : Byte) : zeroPagePointer wrap q (s.setX v) = zeroPagePointer wrap q s := rfl
@[simp] theorem zeroPagePointer_setY (wrap : Bool) (q : Byte) (v : Byte) : zeroPagePointer wrap q (s.setY v) = zeroPagePointer wrap q s := rfl
@[simp] theorem zeroPagePointer_setPC (wrap : Bool) (q : Byte) (w : Word) : zeroPagePointer wrap q (s.setPC w) = zeroPagePointer wrap q s := rfl
@[simp] theorem zeroPagePointer_setStatus (wrap : Bool) (q : Byte) (v : Byte) : zeroPagePointer wrap q (s.setStatus v) = zeroPagePointer wrap q s := rfl
@[simp] theorem zeroPagePointer_setFlag (wrap : Bool) (q : Byte) (f : Flag) (on : Bool) : zeroPagePointer wrap q (s.setFlag f on) = zeroPagePointer wrap q s := rfl

@[simp] theorem eaZeroPageX_setFlag (b : Byte) (f : Flag) (on : Bool) : eaZeroPageX b (s.setFlag f on) = eaZeroPageX b s := rfl
@[simp] theorem eaZeroPageY_setFlag (b : Byte) (f : Flag) (on : Bool) : eaZeroPageY b (s.setFlag f on) = eaZeroPageY b s := rfl
@[simp] theorem eaAbsoluteX_setFlag (w : Word) (f : Flag) (on : Bool) : eaAbsoluteX w (s.setFlag f on) = eaAbsoluteX w s := rfl
@[simp] theorem eaAbsoluteY_setFlag (w : Word) (f : Flag) (on : Bool) : eaAbsoluteY w (s.setFlag f on) = eaAbsoluteY w s := rfl
@[simp] theorem eaIndirectX_setFlag (b : Byte) (f : Flag) (on : Bool) : eaIndirectX b (s.setFlag f on) = eaIndirectX b s := rfl
@[simp] theorem eaIndirectY_setFlag (b : Byte) (f : Flag) (on : Bool) : eaIndirectY b (s.setFlag f on) = eaIndirectY b s := rfl
@[simp] theorem relativeTarget_setFlag (b : Byte) (f : Flag) (on : Bool) : relativeTarget b (s.setFlag f on) = relativeTarget b s := rfl
@[simp] theorem indirectTarget_setFlag (w : Word) (f : Flag) (on : Bool) : indirectTarget w (s.setFlag f on) = indirectTarget w s := rfl
@[simp] theorem Source.read_setFlag (src : Source) (f : Flag) (on : Bool) : src.read (s.setFlag f on) = src.read s := by cases src <;> rfl
@[simp] theorem Place.read_setFlag (pl : Place) (f : Flag) (on : Bool) : pl.read (s.setFlag f on) = pl.read s := by cases pl <;> rfl

-- ADC and SBC (`41_arithmetic.md` R131, R132)

@[simp] theorem addWithCarry_a (src : Source) : (addWithCarry src s).a = (addCore s.a (src.read s) (s.flag .c)).r := rfl
@[simp] theorem addWithCarry_x (src : Source) : (addWithCarry src s).x = s.x := rfl
@[simp] theorem addWithCarry_y (src : Source) : (addWithCarry src s).y = s.y := rfl
@[simp] theorem addWithCarry_sp (src : Source) : (addWithCarry src s).sp = s.sp := rfl
@[simp] theorem addWithCarry_pc (src : Source) : (addWithCarry src s).pc = s.pc := rfl
@[simp] theorem addWithCarry_mem (src : Source) : (addWithCarry src s).mem = s.mem := rfl

theorem flag_addWithCarry (src : Source) (f : Flag) :
    (addWithCarry src s).flag f = if f = .n then (addCore s.a (src.read s) (s.flag .c)).r.getLsbD 7
      else if f = .z then (addCore s.a (src.read s) (s.flag .c)).r == 0
      else if f = .v then (addCore s.a (src.read s) (s.flag .c)).vout
      else if f = .c then (addCore s.a (src.read s) (s.flag .c)).cout else s.flag f := by
  simp only [addWithCarry, State.flag_setZN, State.flag_setFlag, State.flag_setA]

@[simp] theorem subtractWithBorrow_a (src : Source) : (subtractWithBorrow src s).a = (addCore s.a (~~~(src.read s)) (s.flag .c)).r := rfl
@[simp] theorem subtractWithBorrow_x (src : Source) : (subtractWithBorrow src s).x = s.x := rfl
@[simp] theorem subtractWithBorrow_y (src : Source) : (subtractWithBorrow src s).y = s.y := rfl
@[simp] theorem subtractWithBorrow_sp (src : Source) : (subtractWithBorrow src s).sp = s.sp := rfl
@[simp] theorem subtractWithBorrow_pc (src : Source) : (subtractWithBorrow src s).pc = s.pc := rfl
@[simp] theorem subtractWithBorrow_mem (src : Source) : (subtractWithBorrow src s).mem = s.mem := rfl

theorem flag_subtractWithBorrow (src : Source) (f : Flag) :
    (subtractWithBorrow src s).flag f = if f = .n then (addCore s.a (~~~(src.read s)) (s.flag .c)).r.getLsbD 7
      else if f = .z then (addCore s.a (~~~(src.read s)) (s.flag .c)).r == 0
      else if f = .v then (addCore s.a (~~~(src.read s)) (s.flag .c)).vout
      else if f = .c then (addCore s.a (~~~(src.read s)) (s.flag .c)).cout else s.flag f := by
  simp only [subtractWithBorrow, State.flag_setZN, State.flag_setFlag, State.flag_setA]

-- BIT (`42_logical.md` R143)

@[simp] theorem testBits_a (src : Source) : (testBits src s).a = s.a := rfl
@[simp] theorem testBits_x (src : Source) : (testBits src s).x = s.x := rfl
@[simp] theorem testBits_y (src : Source) : (testBits src s).y = s.y := rfl
@[simp] theorem testBits_sp (src : Source) : (testBits src s).sp = s.sp := rfl
@[simp] theorem testBits_pc (src : Source) : (testBits src s).pc = s.pc := rfl
@[simp] theorem testBits_mem (src : Source) : (testBits src s).mem = s.mem := rfl

theorem flag_testBits (src : Source) (f : Flag) :
    (testBits src s).flag f = if f = .v then (src.read s).getLsbD 6 else if f = .n then (src.read s).getLsbD 7
      else if f = .z then s.a &&& src.read s == 0 else s.flag f := by
  simp only [testBits, State.flag_setFlag]

-- Shifts and rotates (`43_shift_rotate.md` R150 to R153)

@[simp] theorem writeShifted_x (pl : Place) (out : ShiftOut) : (writeShifted pl out s).x = s.x := by cases pl <;> rfl
@[simp] theorem writeShifted_y (pl : Place) (out : ShiftOut) : (writeShifted pl out s).y = s.y := by cases pl <;> rfl
@[simp] theorem writeShifted_sp (pl : Place) (out : ShiftOut) : (writeShifted pl out s).sp = s.sp := by cases pl <;> rfl
@[simp] theorem writeShifted_pc (pl : Place) (out : ShiftOut) : (writeShifted pl out s).pc = s.pc := by cases pl <;> rfl
@[simp] theorem writeShifted_acc_a (out : ShiftOut) : (writeShifted .acc out s).a = out.r := rfl
@[simp] theorem writeShifted_acc_mem (out : ShiftOut) : (writeShifted .acc out s).mem = s.mem := rfl
@[simp] theorem writeShifted_mem_a (ea : Word) (out : ShiftOut) : (writeShifted (.mem ea) out s).a = s.a := rfl

theorem readMem_writeShifted_mem (ea addr : Word) (out : ShiftOut) :
    (writeShifted (.mem ea) out s).readMem addr = if addr = ea then out.r else s.readMem addr := by
  simp [writeShifted, Place.write, State.readMem_writeMem]

theorem flag_writeShifted (pl : Place) (out : ShiftOut) (f : Flag) :
    (writeShifted pl out s).flag f = if f = .n then out.r.getLsbD 7 else if f = .z then out.r == 0
      else if f = .c then out.cout else s.flag f := by
  cases pl <;>
    simp only [writeShifted, Place.write, State.flag_setZN, State.flag_setA, State.flag_writeMem, State.flag_setFlag]

-- INC and DEC (`45_incdec.md` R170, R171)

@[simp] theorem incrementMem_a (ea : Word) : (incrementMem ea s).a = s.a := by simp [incrementMem]
@[simp] theorem incrementMem_x (ea : Word) : (incrementMem ea s).x = s.x := by simp [incrementMem]
@[simp] theorem incrementMem_y (ea : Word) : (incrementMem ea s).y = s.y := by simp [incrementMem]
@[simp] theorem incrementMem_sp (ea : Word) : (incrementMem ea s).sp = s.sp := by simp [incrementMem]
@[simp] theorem incrementMem_pc (ea : Word) : (incrementMem ea s).pc = s.pc := by simp [incrementMem]

theorem readMem_incrementMem (ea addr : Word) :
    (incrementMem ea s).readMem addr = if addr = ea then s.readMem ea + 1 else s.readMem addr := by
  simp [incrementMem, State.readMem_writeMem]

theorem flag_incrementMem (ea : Word) (f : Flag) :
    (incrementMem ea s).flag f = if f = .n then (s.readMem ea + 1).getLsbD 7
      else if f = .z then s.readMem ea + 1 == 0 else s.flag f := by
  simp only [incrementMem, State.flag_setZN, State.flag_writeMem]

@[simp] theorem decrementMem_a (ea : Word) : (decrementMem ea s).a = s.a := by simp [decrementMem]
@[simp] theorem decrementMem_x (ea : Word) : (decrementMem ea s).x = s.x := by simp [decrementMem]
@[simp] theorem decrementMem_y (ea : Word) : (decrementMem ea s).y = s.y := by simp [decrementMem]
@[simp] theorem decrementMem_sp (ea : Word) : (decrementMem ea s).sp = s.sp := by simp [decrementMem]
@[simp] theorem decrementMem_pc (ea : Word) : (decrementMem ea s).pc = s.pc := by simp [decrementMem]

theorem readMem_decrementMem (ea addr : Word) :
    (decrementMem ea s).readMem addr = if addr = ea then s.readMem ea - 1 else s.readMem addr := by
  simp [decrementMem, State.readMem_writeMem]

theorem flag_decrementMem (ea : Word) (f : Flag) :
    (decrementMem ea s).flag f = if f = .n then (s.readMem ea - 1).getLsbD 7
      else if f = .z then s.readMem ea - 1 == 0 else s.flag f := by
  simp only [decrementMem, State.flag_setZN, State.flag_writeMem]

-- Branches, JSR and RTS (`47_control_transfer.md` R200, R211, R212)

@[simp] theorem branch_a (cond : Bool) (b : Byte) : (branch cond b s).a = s.a := by cases cond <;> rfl
@[simp] theorem branch_x (cond : Bool) (b : Byte) : (branch cond b s).x = s.x := by cases cond <;> rfl
@[simp] theorem branch_y (cond : Bool) (b : Byte) : (branch cond b s).y = s.y := by cases cond <;> rfl
@[simp] theorem branch_sp (cond : Bool) (b : Byte) : (branch cond b s).sp = s.sp := by cases cond <;> rfl
@[simp] theorem branch_mem (cond : Bool) (b : Byte) : (branch cond b s).mem = s.mem := by cases cond <;> rfl
@[simp] theorem flag_branch (cond : Bool) (b : Byte) (f : Flag) : (branch cond b s).flag f = s.flag f := by cases cond <;> rfl

theorem branch_pc (cond : Bool) (b : Byte) : (branch cond b s).pc = if cond then relativeTarget b s else s.pc := by
  cases cond <;> rfl

@[simp] theorem jumpToSubroutine_a (w : Word) : (jumpToSubroutine w s).a = s.a := by simp [jumpToSubroutine]
@[simp] theorem jumpToSubroutine_x (w : Word) : (jumpToSubroutine w s).x = s.x := by simp [jumpToSubroutine]
@[simp] theorem jumpToSubroutine_y (w : Word) : (jumpToSubroutine w s).y = s.y := by simp [jumpToSubroutine]
@[simp] theorem jumpToSubroutine_sp (w : Word) : (jumpToSubroutine w s).sp = s.sp - 1 - 1 := by simp [jumpToSubroutine]
@[simp] theorem jumpToSubroutine_pc (w : Word) : (jumpToSubroutine w s).pc = w := by simp [jumpToSubroutine]

theorem readMem_jumpToSubroutine (w addr : Word) :
    (jumpToSubroutine w s).readMem addr = if addr = stackAddr (s.sp - 1) then loByte (s.pc - 1)
      else if addr = stackAddr s.sp then hiByte (s.pc - 1) else s.readMem addr := by
  simp [jumpToSubroutine, State.readMem_push]

@[simp] theorem flag_jumpToSubroutine (w : Word) (f : Flag) : (jumpToSubroutine w s).flag f = s.flag f := by
  simp only [jumpToSubroutine, State.flag_setPC, State.flag_push]

@[simp] theorem returnFromSubroutine_a : (returnFromSubroutine s).a = s.a := rfl
@[simp] theorem returnFromSubroutine_x : (returnFromSubroutine s).x = s.x := rfl
@[simp] theorem returnFromSubroutine_y : (returnFromSubroutine s).y = s.y := rfl
@[simp] theorem returnFromSubroutine_sp : (returnFromSubroutine s).sp = s.sp + 1 + 1 := rfl
@[simp] theorem returnFromSubroutine_pc : (returnFromSubroutine s).pc = wordOf (s.readMem (stackAddr (s.sp + 1 + 1))) (s.readMem (stackAddr (s.sp + 1))) + 1 := rfl
@[simp] theorem returnFromSubroutine_mem : (returnFromSubroutine s).mem = s.mem := rfl

@[simp] theorem flag_returnFromSubroutine (f : Flag) : (returnFromSubroutine s).flag f = s.flag f := rfl

-- PLA and PLP (`48_stack_flag.md` R221, R223)

@[simp] theorem pullA_a : (pullA s).a = s.readMem (stackAddr (s.sp + 1)) := rfl
@[simp] theorem pullA_x : (pullA s).x = s.x := rfl
@[simp] theorem pullA_y : (pullA s).y = s.y := rfl
@[simp] theorem pullA_sp : (pullA s).sp = s.sp + 1 := rfl
@[simp] theorem pullA_pc : (pullA s).pc = s.pc := rfl
@[simp] theorem pullA_mem : (pullA s).mem = s.mem := rfl

theorem flag_pullA (f : Flag) :
    (pullA s).flag f = if f = .n then (s.readMem (stackAddr (s.sp + 1))).getLsbD 7
      else if f = .z then s.readMem (stackAddr (s.sp + 1)) == 0 else s.flag f := by
  simp [pullA, flag_writeAZN]

@[simp] theorem pullStatus_a : (pullStatus s).a = s.a := rfl
@[simp] theorem pullStatus_x : (pullStatus s).x = s.x := rfl
@[simp] theorem pullStatus_y : (pullStatus s).y = s.y := rfl
@[simp] theorem pullStatus_sp : (pullStatus s).sp = s.sp + 1 := rfl
@[simp] theorem pullStatus_pc : (pullStatus s).pc = s.pc := rfl
@[simp] theorem pullStatus_mem : (pullStatus s).mem = s.mem := rfl

theorem flag_pullStatus (f : Flag) :
    (pullStatus s).flag f = if f = .b then false else (s.readMem (stackAddr (s.sp + 1))).getLsbD f.bit := by
  simp only [pullStatus, State.flag_setStatus, getLsbD_pulledStatus, State.pull_fst]

-- Reads of memory through the operations that store nothing

@[simp] theorem readMem_addWithCarry (src : Source) (addr : Word) : (addWithCarry src s).readMem addr = s.readMem addr := by
  simp [State.readMem]

@[simp] theorem readMem_subtractWithBorrow (src : Source) (addr : Word) : (subtractWithBorrow src s).readMem addr = s.readMem addr := by
  simp [State.readMem]

@[simp] theorem readMem_testBits (src : Source) (addr : Word) : (testBits src s).readMem addr = s.readMem addr := by
  simp [State.readMem]

@[simp] theorem readMem_branch (cond : Bool) (b : Byte) (addr : Word) : (branch cond b s).readMem addr = s.readMem addr := by
  simp [State.readMem]

@[simp] theorem readMem_returnFromSubroutine (addr : Word) : (returnFromSubroutine s).readMem addr = s.readMem addr := by
  simp [State.readMem]

@[simp] theorem readMem_returnFromInterrupt (addr : Word) : (returnFromInterrupt s).readMem addr = s.readMem addr := by
  simp [State.readMem]

@[simp] theorem readMem_pullA (addr : Word) : (pullA s).readMem addr = s.readMem addr := by
  simp [State.readMem]

@[simp] theorem readMem_pullStatus (addr : Word) : (pullStatus s).readMem addr = s.readMem addr := by
  simp [State.readMem]

@[simp] theorem readMem_writeShifted_acc (out : ShiftOut) (addr : Word) :
    (writeShifted .acc out s).readMem addr = s.readMem addr := by
  simp [State.readMem]

end Sys2Proof.Machine
end

