-- ==== Sys2Proof/Laws/Invariant.lean ====
section
/-! SUPPORT. Every update of the state keeps its invariant (`Safety.lean`): memory stays in canonical form, and bit 5 of
P stays stored as 1. -/

namespace Sys2Proof.Machine

variable {s : State}

theorem State.Inv.setA (h : s.Inv) (v : Byte) : (s.setA v).Inv := h

theorem State.Inv.setX (h : s.Inv) (v : Byte) : (s.setX v).Inv := h

theorem State.Inv.setY (h : s.Inv) (v : Byte) : (s.setY v).Inv := h

theorem State.Inv.setSP (h : s.Inv) (v : Byte) : (s.setSP v).Inv := h

theorem State.Inv.setPC (h : s.Inv) (w : Word) : (s.setPC w).Inv := h

theorem State.Inv.setStatus (h : s.Inv) (v : Byte) : (s.setStatus v).Inv := ⟨h.1, State.setStatus_bit5 s v⟩

theorem State.Inv.setFlag (h : s.Inv) (f : Flag) (on : Bool) : (s.setFlag f on).Inv := ⟨h.1, State.setFlag_bit5 s f on⟩

theorem State.Inv.setZN (h : s.Inv) (v : Byte) : (s.setZN v).Inv := (h.setFlag _ _).setFlag _ _

theorem State.Inv.writeMem (h : s.Inv) (addr : Word) (v : Byte) : (s.writeMem addr v).Inv :=
  ⟨State.wf_writeMem s addr v h.1, h.2⟩

theorem State.Inv.push (h : s.Inv) (v : Byte) : (s.push v).Inv := (h.writeMem _ _).setSP _

theorem State.Inv.pull (h : s.Inv) : s.pull.2.Inv := h

theorem State.Inv.writeAZN (h : s.Inv) (v : Byte) : (writeAZN v s).Inv := (h.setA v).setZN v

theorem State.Inv.writeXZN (h : s.Inv) (v : Byte) : (writeXZN v s).Inv := (h.setX v).setZN v

theorem State.Inv.writeYZN (h : s.Inv) (v : Byte) : (writeYZN v s).Inv := (h.setY v).setZN v

theorem State.Inv.placeWrite (h : s.Inv) (pl : Place) (v : Byte) : (pl.write v s).Inv := by
  cases pl
  · exact h.writeMem _ _
  · exact h.setA _

theorem State.Inv.writeShifted (h : s.Inv) (pl : Place) (out : ShiftOut) : (writeShifted pl out s).Inv :=
  ((h.setFlag _ _).placeWrite _ _).setZN _

theorem State.Inv.branch (h : s.Inv) (cond : Bool) (b : Byte) : (branch cond b s).Inv := by
  cases cond <;> exact h

theorem State.Inv.takeBreak (h : s.Inv) (mode : Config.BrkMode) : (takeBreak mode s).Inv := by
  cases mode
  · exact ((h.setFlag _ _).setFlag _ _).setPC _
  · exact ((((((h.push _).push _).push _).setFlag _ _).setFlag _ _)).setPC _

end Sys2Proof.Machine
end

