-- ==== Sys2Proof/Laws/Exec.lean ====
section
/-! SUPPORT. What an instruction can do, said once: `exec` answers a next state, and that state is what one of the shared
operations makes of the state it ran in. A proof about all 151 instructions is then a case analysis over these effects,
with the lemmas of `Laws/Shared.lean` for each. -/

namespace Sys2Proof.Machine

/-- The effects instructions have: from the state an instruction runs in to the state it gives, by shared operation. -/
inductive Effect (i : Instr) (s : State) : State → Prop where
  | adc (src : Source) (h : i.mnemonic = .adc) : Effect i s (addWithCarry src s)
  | sbc (src : Source) (h : i.mnemonic = .sbc) : Effect i s (subtractWithBorrow src s)
  | toA (v : Byte) (h : i.mnemonic ∈ [Mnemonic.and, .ora, .eor, .lda, .txa, .tya]) : Effect i s (writeAZN v s)
  | toX (v : Byte) (h : i.mnemonic ∈ [Mnemonic.ldx, .tax, .inx, .dex, .tsx]) : Effect i s (writeXZN v s)
  | toY (v : Byte) (h : i.mnemonic ∈ [Mnemonic.ldy, .tay, .iny, .dey]) : Effect i s (writeYZN v s)
  | bit (src : Source) (h : i.mnemonic = .bit) : Effect i s (testBits src s)
  | shiftAcc (out : ShiftOut) (h : i ∈ [Instr.aslAcc, .lsrAcc, .rolAcc, .rorAcc]) : Effect i s (writeShifted .acc out s)
  | shiftMem (ea : Word) (out : ShiftOut) (h : i.mnemonic ∈ [Mnemonic.asl, .lsr, .rol, .ror])
      (hs : storedAt i s = [ea]) :
      Effect i s (writeShifted (.mem ea) out s)
  | compare (reg m : Byte) (h : i.mnemonic ∈ [Mnemonic.cmp, .cpx, .cpy]) : Effect i s (compare reg m s)
  | inc (ea : Word) (h : i.mnemonic = .inc) (hs : storedAt i s = [ea]) : Effect i s (incrementMem ea s)
  | dec (ea : Word) (h : i.mnemonic = .dec) (hs : storedAt i s = [ea]) : Effect i s (decrementMem ea s)
  | store (ea : Word) (v : Byte) (h : i.mnemonic ∈ [Mnemonic.sta, .stx, .sty]) (hs : storedAt i s = [ea]) :
      Effect i s (s.writeMem ea v)
  | txs (h : i = .txs) : Effect i s (s.setSP s.x)
  | branch (cond : Bool) (b : Byte) (h : (i, cond) ∈ [(Instr.bcc b, !s.flag .c), (.bcs b, s.flag .c), (.beq b, s.flag .z),
      (.bne b, !s.flag .z), (.bmi b, s.flag .n), (.bpl b, !s.flag .n), (.bvc b, !s.flag .v), (.bvs b, s.flag .v)]) :
      Effect i s (branch cond b s)
  | jmpAbs (w : Word) (h : i = .jmpAbs w) : Effect i s (s.setPC w)
  | jmpInd (w : Word) (h : i = .jmpInd w) : Effect i s (s.setPC (indirectTarget w s))
  | jsr (w : Word) (h : i = .jsr w) : Effect i s (jumpToSubroutine w s)
  | rts (h : i = .rts) : Effect i s (returnFromSubroutine s)
  | push (v : Byte) (h : i.mnemonic ∈ [Mnemonic.pha, .php]) (hs : storedAt i s = [stackAddr s.sp]) :
      Effect i s (s.push v)
  | pla (h : i = .pla) : Effect i s (pullA s)
  | plp (h : i = .plp) : Effect i s (pullStatus s)
  | flag (f : Flag) (on : Bool) (h : (f, i.mnemonic) ∈ [(Flag.c, Mnemonic.sec), (.c, .clc), (.d, .sed), (.d, .cld),
      (.i, .sei), (.i, .cli), (.v, .clv)]) : Effect i s (s.setFlag f on)
  | brk (h : i = .brk) : Effect i s (takeBreak Config.brkMode s)
  | rti (h : i = .rti) : Effect i s (returnFromInterrupt s)
  | nop (h : i = .nop) : Effect i s s

/-- Every instruction has one of the effects. -/
theorem exec_effect (i : Instr) (s : State) : ∃ t, exec i s = .next t ∧ Effect i s t := by
  cases i with
  | adcImm _ => exact ⟨_, rfl, .adc _ rfl⟩
  | adcZp _ => exact ⟨_, rfl, .adc _ rfl⟩
  | adcZpX _ => exact ⟨_, rfl, .adc _ rfl⟩
  | adcAbs _ => exact ⟨_, rfl, .adc _ rfl⟩
  | adcAbsX _ => exact ⟨_, rfl, .adc _ rfl⟩
  | adcAbsY _ => exact ⟨_, rfl, .adc _ rfl⟩
  | adcIndX _ => exact ⟨_, rfl, .adc _ rfl⟩
  | adcIndY _ => exact ⟨_, rfl, .adc _ rfl⟩
  | sbcImm _ => exact ⟨_, rfl, .sbc _ rfl⟩
  | sbcZp _ => exact ⟨_, rfl, .sbc _ rfl⟩
  | sbcZpX _ => exact ⟨_, rfl, .sbc _ rfl⟩
  | sbcAbs _ => exact ⟨_, rfl, .sbc _ rfl⟩
  | sbcAbsX _ => exact ⟨_, rfl, .sbc _ rfl⟩
  | sbcAbsY _ => exact ⟨_, rfl, .sbc _ rfl⟩
  | sbcIndX _ => exact ⟨_, rfl, .sbc _ rfl⟩
  | sbcIndY _ => exact ⟨_, rfl, .sbc _ rfl⟩
  | andImm _ => exact ⟨_, rfl, .toA _ (of_decide_eq_true rfl)⟩
  | andZp _ => exact ⟨_, rfl, .toA _ (of_decide_eq_true rfl)⟩
  | andZpX _ => exact ⟨_, rfl, .toA _ (of_decide_eq_true rfl)⟩
  | andAbs _ => exact ⟨_, rfl, .toA _ (of_decide_eq_true rfl)⟩
  | andAbsX _ => exact ⟨_, rfl, .toA _ (of_decide_eq_true rfl)⟩
  | andAbsY _ => exact ⟨_, rfl, .toA _ (of_decide_eq_true rfl)⟩
  | andIndX _ => exact ⟨_, rfl, .toA _ (of_decide_eq_true rfl)⟩
  | andIndY _ => exact ⟨_, rfl, .toA _ (of_decide_eq_true rfl)⟩
  | oraImm _ => exact ⟨_, rfl, .toA _ (of_decide_eq_true rfl)⟩
  | oraZp _ => exact ⟨_, rfl, .toA _ (of_decide_eq_true rfl)⟩
  | oraZpX _ => exact ⟨_, rfl, .toA _ (of_decide_eq_true rfl)⟩
  | oraAbs _ => exact ⟨_, rfl, .toA _ (of_decide_eq_true rfl)⟩
  | oraAbsX _ => exact ⟨_, rfl, .toA _ (of_decide_eq_true rfl)⟩
  | oraAbsY _ => exact ⟨_, rfl, .toA _ (of_decide_eq_true rfl)⟩
  | oraIndX _ => exact ⟨_, rfl, .toA _ (of_decide_eq_true rfl)⟩
  | oraIndY _ => exact ⟨_, rfl, .toA _ (of_decide_eq_true rfl)⟩
  | eorImm _ => exact ⟨_, rfl, .toA _ (of_decide_eq_true rfl)⟩
  | eorZp _ => exact ⟨_, rfl, .toA _ (of_decide_eq_true rfl)⟩
  | eorZpX _ => exact ⟨_, rfl, .toA _ (of_decide_eq_true rfl)⟩
  | eorAbs _ => exact ⟨_, rfl, .toA _ (of_decide_eq_true rfl)⟩
  | eorAbsX _ => exact ⟨_, rfl, .toA _ (of_decide_eq_true rfl)⟩
  | eorAbsY _ => exact ⟨_, rfl, .toA _ (of_decide_eq_true rfl)⟩
  | eorIndX _ => exact ⟨_, rfl, .toA _ (of_decide_eq_true rfl)⟩
  | eorIndY _ => exact ⟨_, rfl, .toA _ (of_decide_eq_true rfl)⟩
  | bitZp _ => exact ⟨_, rfl, .bit _ rfl⟩
  | bitAbs _ => exact ⟨_, rfl, .bit _ rfl⟩
  | aslZp _ => exact ⟨_, rfl, .shiftMem _ _ (of_decide_eq_true rfl) rfl⟩
  | aslZpX _ => exact ⟨_, rfl, .shiftMem _ _ (of_decide_eq_true rfl) rfl⟩
  | aslAbs _ => exact ⟨_, rfl, .shiftMem _ _ (of_decide_eq_true rfl) rfl⟩
  | aslAbsX _ => exact ⟨_, rfl, .shiftMem _ _ (of_decide_eq_true rfl) rfl⟩
  | aslAcc => exact ⟨_, rfl, .shiftAcc _ (of_decide_eq_true rfl)⟩
  | lsrZp _ => exact ⟨_, rfl, .shiftMem _ _ (of_decide_eq_true rfl) rfl⟩
  | lsrZpX _ => exact ⟨_, rfl, .shiftMem _ _ (of_decide_eq_true rfl) rfl⟩
  | lsrAbs _ => exact ⟨_, rfl, .shiftMem _ _ (of_decide_eq_true rfl) rfl⟩
  | lsrAbsX _ => exact ⟨_, rfl, .shiftMem _ _ (of_decide_eq_true rfl) rfl⟩
  | lsrAcc => exact ⟨_, rfl, .shiftAcc _ (of_decide_eq_true rfl)⟩
  | rolZp _ => exact ⟨_, rfl, .shiftMem _ _ (of_decide_eq_true rfl) rfl⟩
  | rolZpX _ => exact ⟨_, rfl, .shiftMem _ _ (of_decide_eq_true rfl) rfl⟩
  | rolAbs _ => exact ⟨_, rfl, .shiftMem _ _ (of_decide_eq_true rfl) rfl⟩
  | rolAbsX _ => exact ⟨_, rfl, .shiftMem _ _ (of_decide_eq_true rfl) rfl⟩
  | rolAcc => exact ⟨_, rfl, .shiftAcc _ (of_decide_eq_true rfl)⟩
  | rorZp _ => exact ⟨_, rfl, .shiftMem _ _ (of_decide_eq_true rfl) rfl⟩
  | rorZpX _ => exact ⟨_, rfl, .shiftMem _ _ (of_decide_eq_true rfl) rfl⟩
  | rorAbs _ => exact ⟨_, rfl, .shiftMem _ _ (of_decide_eq_true rfl) rfl⟩
  | rorAbsX _ => exact ⟨_, rfl, .shiftMem _ _ (of_decide_eq_true rfl) rfl⟩
  | rorAcc => exact ⟨_, rfl, .shiftAcc _ (of_decide_eq_true rfl)⟩
  | cmpImm _ => exact ⟨_, rfl, .compare _ _ (of_decide_eq_true rfl)⟩
  | cmpZp _ => exact ⟨_, rfl, .compare _ _ (of_decide_eq_true rfl)⟩
  | cmpZpX _ => exact ⟨_, rfl, .compare _ _ (of_decide_eq_true rfl)⟩
  | cmpAbs _ => exact ⟨_, rfl, .compare _ _ (of_decide_eq_true rfl)⟩
  | cmpAbsX _ => exact ⟨_, rfl, .compare _ _ (of_decide_eq_true rfl)⟩
  | cmpAbsY _ => exact ⟨_, rfl, .compare _ _ (of_decide_eq_true rfl)⟩
  | cmpIndX _ => exact ⟨_, rfl, .compare _ _ (of_decide_eq_true rfl)⟩
  | cmpIndY _ => exact ⟨_, rfl, .compare _ _ (of_decide_eq_true rfl)⟩
  | cpxImm _ => exact ⟨_, rfl, .compare _ _ (of_decide_eq_true rfl)⟩
  | cpxZp _ => exact ⟨_, rfl, .compare _ _ (of_decide_eq_true rfl)⟩
  | cpxAbs _ => exact ⟨_, rfl, .compare _ _ (of_decide_eq_true rfl)⟩
  | cpyImm _ => exact ⟨_, rfl, .compare _ _ (of_decide_eq_true rfl)⟩
  | cpyZp _ => exact ⟨_, rfl, .compare _ _ (of_decide_eq_true rfl)⟩
  | cpyAbs _ => exact ⟨_, rfl, .compare _ _ (of_decide_eq_true rfl)⟩
  | incZp _ => exact ⟨_, rfl, .inc _ rfl rfl⟩
  | incZpX _ => exact ⟨_, rfl, .inc _ rfl rfl⟩
  | incAbs _ => exact ⟨_, rfl, .inc _ rfl rfl⟩
  | incAbsX _ => exact ⟨_, rfl, .inc _ rfl rfl⟩
  | decZp _ => exact ⟨_, rfl, .dec _ rfl rfl⟩
  | decZpX _ => exact ⟨_, rfl, .dec _ rfl rfl⟩
  | decAbs _ => exact ⟨_, rfl, .dec _ rfl rfl⟩
  | decAbsX _ => exact ⟨_, rfl, .dec _ rfl rfl⟩
  | inx => exact ⟨_, rfl, .toX _ (of_decide_eq_true rfl)⟩
  | iny => exact ⟨_, rfl, .toY _ (of_decide_eq_true rfl)⟩
  | dex => exact ⟨_, rfl, .toX _ (of_decide_eq_true rfl)⟩
  | dey => exact ⟨_, rfl, .toY _ (of_decide_eq_true rfl)⟩
  | ldaImm _ => exact ⟨_, rfl, .toA _ (of_decide_eq_true rfl)⟩
  | ldaZp _ => exact ⟨_, rfl, .toA _ (of_decide_eq_true rfl)⟩
  | ldaZpX _ => exact ⟨_, rfl, .toA _ (of_decide_eq_true rfl)⟩
  | ldaAbs _ => exact ⟨_, rfl, .toA _ (of_decide_eq_true rfl)⟩
  | ldaAbsX _ => exact ⟨_, rfl, .toA _ (of_decide_eq_true rfl)⟩
  | ldaAbsY _ => exact ⟨_, rfl, .toA _ (of_decide_eq_true rfl)⟩
  | ldaIndX _ => exact ⟨_, rfl, .toA _ (of_decide_eq_true rfl)⟩
  | ldaIndY _ => exact ⟨_, rfl, .toA _ (of_decide_eq_true rfl)⟩
  | ldxImm _ => exact ⟨_, rfl, .toX _ (of_decide_eq_true rfl)⟩
  | ldxZp _ => exact ⟨_, rfl, .toX _ (of_decide_eq_true rfl)⟩
  | ldxZpY _ => exact ⟨_, rfl, .toX _ (of_decide_eq_true rfl)⟩
  | ldxAbs _ => exact ⟨_, rfl, .toX _ (of_decide_eq_true rfl)⟩
  | ldxAbsY _ => exact ⟨_, rfl, .toX _ (of_decide_eq_true rfl)⟩
  | ldyImm _ => exact ⟨_, rfl, .toY _ (of_decide_eq_true rfl)⟩
  | ldyZp _ => exact ⟨_, rfl, .toY _ (of_decide_eq_true rfl)⟩
  | ldyZpX _ => exact ⟨_, rfl, .toY _ (of_decide_eq_true rfl)⟩
  | ldyAbs _ => exact ⟨_, rfl, .toY _ (of_decide_eq_true rfl)⟩
  | ldyAbsX _ => exact ⟨_, rfl, .toY _ (of_decide_eq_true rfl)⟩
  | staZp _ => exact ⟨_, rfl, .store _ _ (of_decide_eq_true rfl) rfl⟩
  | staZpX _ => exact ⟨_, rfl, .store _ _ (of_decide_eq_true rfl) rfl⟩
  | staAbs _ => exact ⟨_, rfl, .store _ _ (of_decide_eq_true rfl) rfl⟩
  | staAbsX _ => exact ⟨_, rfl, .store _ _ (of_decide_eq_true rfl) rfl⟩
  | staAbsY _ => exact ⟨_, rfl, .store _ _ (of_decide_eq_true rfl) rfl⟩
  | staIndX _ => exact ⟨_, rfl, .store _ _ (of_decide_eq_true rfl) rfl⟩
  | staIndY _ => exact ⟨_, rfl, .store _ _ (of_decide_eq_true rfl) rfl⟩
  | stxZp _ => exact ⟨_, rfl, .store _ _ (of_decide_eq_true rfl) rfl⟩
  | stxZpY _ => exact ⟨_, rfl, .store _ _ (of_decide_eq_true rfl) rfl⟩
  | stxAbs _ => exact ⟨_, rfl, .store _ _ (of_decide_eq_true rfl) rfl⟩
  | styZp _ => exact ⟨_, rfl, .store _ _ (of_decide_eq_true rfl) rfl⟩
  | styZpX _ => exact ⟨_, rfl, .store _ _ (of_decide_eq_true rfl) rfl⟩
  | styAbs _ => exact ⟨_, rfl, .store _ _ (of_decide_eq_true rfl) rfl⟩
  | tax => exact ⟨_, rfl, .toX _ (of_decide_eq_true rfl)⟩
  | tay => exact ⟨_, rfl, .toY _ (of_decide_eq_true rfl)⟩
  | txa => exact ⟨_, rfl, .toA _ (of_decide_eq_true rfl)⟩
  | tya => exact ⟨_, rfl, .toA _ (of_decide_eq_true rfl)⟩
  | tsx => exact ⟨_, rfl, .toX _ (of_decide_eq_true rfl)⟩
  | txs => exact ⟨_, rfl, .txs rfl⟩
  | bcc _ => exact ⟨_, rfl, .branch _ _ (by simp)⟩
  | bcs _ => exact ⟨_, rfl, .branch _ _ (by simp)⟩
  | beq _ => exact ⟨_, rfl, .branch _ _ (by simp)⟩
  | bne _ => exact ⟨_, rfl, .branch _ _ (by simp)⟩
  | bmi _ => exact ⟨_, rfl, .branch _ _ (by simp)⟩
  | bpl _ => exact ⟨_, rfl, .branch _ _ (by simp)⟩
  | bvc _ => exact ⟨_, rfl, .branch _ _ (by simp)⟩
  | bvs _ => exact ⟨_, rfl, .branch _ _ (by simp)⟩
  | jmpAbs _ => exact ⟨_, rfl, .jmpAbs _ rfl⟩
  | jmpInd _ => exact ⟨_, rfl, .jmpInd _ rfl⟩
  | jsr _ => exact ⟨_, rfl, .jsr _ rfl⟩
  | rts => exact ⟨_, rfl, .rts rfl⟩
  | pha => exact ⟨_, rfl, .push _ (of_decide_eq_true rfl) rfl⟩
  | pla => exact ⟨_, rfl, .pla rfl⟩
  | php => exact ⟨_, rfl, .push _ (of_decide_eq_true rfl) rfl⟩
  | plp => exact ⟨_, rfl, .plp rfl⟩
  | sec => exact ⟨_, rfl, .flag _ _ (of_decide_eq_true rfl)⟩
  | clc => exact ⟨_, rfl, .flag _ _ (of_decide_eq_true rfl)⟩
  | sed => exact ⟨_, rfl, .flag _ _ (of_decide_eq_true rfl)⟩
  | cld => exact ⟨_, rfl, .flag _ _ (of_decide_eq_true rfl)⟩
  | sei => exact ⟨_, rfl, .flag _ _ (of_decide_eq_true rfl)⟩
  | cli => exact ⟨_, rfl, .flag _ _ (of_decide_eq_true rfl)⟩
  | clv => exact ⟨_, rfl, .flag _ _ (of_decide_eq_true rfl)⟩
  | brk => exact ⟨_, rfl, .brk rfl⟩
  | rti => exact ⟨_, rfl, .rti rfl⟩
  | nop => exact ⟨_, rfl, .nop rfl⟩

/-- The state an instruction gives is one of the effects. -/
theorem effect_of_exec {i : Instr} {s t : State} (h : exec i s = .next t) : Effect i s t := by
  obtain ⟨u, hu, he⟩ := exec_effect i s
  rw [h] at hu
  cases hu
  exact he

end Sys2Proof.Machine
end

