-- ==== Sys2Proof/Laws/PerInstr.lean ====
section
/-! SUPPORT. Facts about every instruction as syntax, one lemma a constructor. -/

namespace Sys2Proof.Laws.EncodedLength

/-- The encoded instruction is as long as R80 says, and its operand fits its field (R81). -/
def Statement (i : Instr) : Prop :=
  (encode i).length = i.length ∧ i.wellFormed = true

theorem adcImm (b : Byte) : Statement (.adcImm b) := ⟨rfl, decide_eq_true b.isLt⟩
theorem adcZp (b : Byte) : Statement (.adcZp b) := ⟨rfl, decide_eq_true b.isLt⟩
theorem adcZpX (b : Byte) : Statement (.adcZpX b) := ⟨rfl, decide_eq_true b.isLt⟩
theorem adcAbs (w : Word) : Statement (.adcAbs w) := ⟨rfl, decide_eq_true w.isLt⟩
theorem adcAbsX (w : Word) : Statement (.adcAbsX w) := ⟨rfl, decide_eq_true w.isLt⟩
theorem adcAbsY (w : Word) : Statement (.adcAbsY w) := ⟨rfl, decide_eq_true w.isLt⟩
theorem adcIndX (b : Byte) : Statement (.adcIndX b) := ⟨rfl, decide_eq_true b.isLt⟩
theorem adcIndY (b : Byte) : Statement (.adcIndY b) := ⟨rfl, decide_eq_true b.isLt⟩
theorem sbcImm (b : Byte) : Statement (.sbcImm b) := ⟨rfl, decide_eq_true b.isLt⟩
theorem sbcZp (b : Byte) : Statement (.sbcZp b) := ⟨rfl, decide_eq_true b.isLt⟩
theorem sbcZpX (b : Byte) : Statement (.sbcZpX b) := ⟨rfl, decide_eq_true b.isLt⟩
theorem sbcAbs (w : Word) : Statement (.sbcAbs w) := ⟨rfl, decide_eq_true w.isLt⟩
theorem sbcAbsX (w : Word) : Statement (.sbcAbsX w) := ⟨rfl, decide_eq_true w.isLt⟩
theorem sbcAbsY (w : Word) : Statement (.sbcAbsY w) := ⟨rfl, decide_eq_true w.isLt⟩
theorem sbcIndX (b : Byte) : Statement (.sbcIndX b) := ⟨rfl, decide_eq_true b.isLt⟩
theorem sbcIndY (b : Byte) : Statement (.sbcIndY b) := ⟨rfl, decide_eq_true b.isLt⟩
theorem andImm (b : Byte) : Statement (.andImm b) := ⟨rfl, decide_eq_true b.isLt⟩
theorem andZp (b : Byte) : Statement (.andZp b) := ⟨rfl, decide_eq_true b.isLt⟩
theorem andZpX (b : Byte) : Statement (.andZpX b) := ⟨rfl, decide_eq_true b.isLt⟩
theorem andAbs (w : Word) : Statement (.andAbs w) := ⟨rfl, decide_eq_true w.isLt⟩
theorem andAbsX (w : Word) : Statement (.andAbsX w) := ⟨rfl, decide_eq_true w.isLt⟩
theorem andAbsY (w : Word) : Statement (.andAbsY w) := ⟨rfl, decide_eq_true w.isLt⟩
theorem andIndX (b : Byte) : Statement (.andIndX b) := ⟨rfl, decide_eq_true b.isLt⟩
theorem andIndY (b : Byte) : Statement (.andIndY b) := ⟨rfl, decide_eq_true b.isLt⟩
theorem oraImm (b : Byte) : Statement (.oraImm b) := ⟨rfl, decide_eq_true b.isLt⟩
theorem oraZp (b : Byte) : Statement (.oraZp b) := ⟨rfl, decide_eq_true b.isLt⟩
theorem oraZpX (b : Byte) : Statement (.oraZpX b) := ⟨rfl, decide_eq_true b.isLt⟩
theorem oraAbs (w : Word) : Statement (.oraAbs w) := ⟨rfl, decide_eq_true w.isLt⟩
theorem oraAbsX (w : Word) : Statement (.oraAbsX w) := ⟨rfl, decide_eq_true w.isLt⟩
theorem oraAbsY (w : Word) : Statement (.oraAbsY w) := ⟨rfl, decide_eq_true w.isLt⟩
theorem oraIndX (b : Byte) : Statement (.oraIndX b) := ⟨rfl, decide_eq_true b.isLt⟩
theorem oraIndY (b : Byte) : Statement (.oraIndY b) := ⟨rfl, decide_eq_true b.isLt⟩
theorem eorImm (b : Byte) : Statement (.eorImm b) := ⟨rfl, decide_eq_true b.isLt⟩
theorem eorZp (b : Byte) : Statement (.eorZp b) := ⟨rfl, decide_eq_true b.isLt⟩
theorem eorZpX (b : Byte) : Statement (.eorZpX b) := ⟨rfl, decide_eq_true b.isLt⟩
theorem eorAbs (w : Word) : Statement (.eorAbs w) := ⟨rfl, decide_eq_true w.isLt⟩
theorem eorAbsX (w : Word) : Statement (.eorAbsX w) := ⟨rfl, decide_eq_true w.isLt⟩
theorem eorAbsY (w : Word) : Statement (.eorAbsY w) := ⟨rfl, decide_eq_true w.isLt⟩
theorem eorIndX (b : Byte) : Statement (.eorIndX b) := ⟨rfl, decide_eq_true b.isLt⟩
theorem eorIndY (b : Byte) : Statement (.eorIndY b) := ⟨rfl, decide_eq_true b.isLt⟩
theorem bitZp (b : Byte) : Statement (.bitZp b) := ⟨rfl, decide_eq_true b.isLt⟩
theorem bitAbs (w : Word) : Statement (.bitAbs w) := ⟨rfl, decide_eq_true w.isLt⟩
theorem aslZp (b : Byte) : Statement (.aslZp b) := ⟨rfl, decide_eq_true b.isLt⟩
theorem aslZpX (b : Byte) : Statement (.aslZpX b) := ⟨rfl, decide_eq_true b.isLt⟩
theorem aslAbs (w : Word) : Statement (.aslAbs w) := ⟨rfl, decide_eq_true w.isLt⟩
theorem aslAbsX (w : Word) : Statement (.aslAbsX w) := ⟨rfl, decide_eq_true w.isLt⟩
theorem aslAcc : Statement .aslAcc := ⟨rfl, rfl⟩
theorem lsrZp (b : Byte) : Statement (.lsrZp b) := ⟨rfl, decide_eq_true b.isLt⟩
theorem lsrZpX (b : Byte) : Statement (.lsrZpX b) := ⟨rfl, decide_eq_true b.isLt⟩
theorem lsrAbs (w : Word) : Statement (.lsrAbs w) := ⟨rfl, decide_eq_true w.isLt⟩
theorem lsrAbsX (w : Word) : Statement (.lsrAbsX w) := ⟨rfl, decide_eq_true w.isLt⟩
theorem lsrAcc : Statement .lsrAcc := ⟨rfl, rfl⟩
theorem rolZp (b : Byte) : Statement (.rolZp b) := ⟨rfl, decide_eq_true b.isLt⟩
theorem rolZpX (b : Byte) : Statement (.rolZpX b) := ⟨rfl, decide_eq_true b.isLt⟩
theorem rolAbs (w : Word) : Statement (.rolAbs w) := ⟨rfl, decide_eq_true w.isLt⟩
theorem rolAbsX (w : Word) : Statement (.rolAbsX w) := ⟨rfl, decide_eq_true w.isLt⟩
theorem rolAcc : Statement .rolAcc := ⟨rfl, rfl⟩
theorem rorZp (b : Byte) : Statement (.rorZp b) := ⟨rfl, decide_eq_true b.isLt⟩
theorem rorZpX (b : Byte) : Statement (.rorZpX b) := ⟨rfl, decide_eq_true b.isLt⟩
theorem rorAbs (w : Word) : Statement (.rorAbs w) := ⟨rfl, decide_eq_true w.isLt⟩
theorem rorAbsX (w : Word) : Statement (.rorAbsX w) := ⟨rfl, decide_eq_true w.isLt⟩
theorem rorAcc : Statement .rorAcc := ⟨rfl, rfl⟩
theorem cmpImm (b : Byte) : Statement (.cmpImm b) := ⟨rfl, decide_eq_true b.isLt⟩
theorem cmpZp (b : Byte) : Statement (.cmpZp b) := ⟨rfl, decide_eq_true b.isLt⟩
theorem cmpZpX (b : Byte) : Statement (.cmpZpX b) := ⟨rfl, decide_eq_true b.isLt⟩
theorem cmpAbs (w : Word) : Statement (.cmpAbs w) := ⟨rfl, decide_eq_true w.isLt⟩
theorem cmpAbsX (w : Word) : Statement (.cmpAbsX w) := ⟨rfl, decide_eq_true w.isLt⟩
theorem cmpAbsY (w : Word) : Statement (.cmpAbsY w) := ⟨rfl, decide_eq_true w.isLt⟩
theorem cmpIndX (b : Byte) : Statement (.cmpIndX b) := ⟨rfl, decide_eq_true b.isLt⟩
theorem cmpIndY (b : Byte) : Statement (.cmpIndY b) := ⟨rfl, decide_eq_true b.isLt⟩
theorem cpxImm (b : Byte) : Statement (.cpxImm b) := ⟨rfl, decide_eq_true b.isLt⟩
theorem cpxZp (b : Byte) : Statement (.cpxZp b) := ⟨rfl, decide_eq_true b.isLt⟩
theorem cpxAbs (w : Word) : Statement (.cpxAbs w) := ⟨rfl, decide_eq_true w.isLt⟩
theorem cpyImm (b : Byte) : Statement (.cpyImm b) := ⟨rfl, decide_eq_true b.isLt⟩
theorem cpyZp (b : Byte) : Statement (.cpyZp b) := ⟨rfl, decide_eq_true b.isLt⟩
theorem cpyAbs (w : Word) : Statement (.cpyAbs w) := ⟨rfl, decide_eq_true w.isLt⟩
theorem incZp (b : Byte) : Statement (.incZp b) := ⟨rfl, decide_eq_true b.isLt⟩
theorem incZpX (b : Byte) : Statement (.incZpX b) := ⟨rfl, decide_eq_true b.isLt⟩
theorem incAbs (w : Word) : Statement (.incAbs w) := ⟨rfl, decide_eq_true w.isLt⟩
theorem incAbsX (w : Word) : Statement (.incAbsX w) := ⟨rfl, decide_eq_true w.isLt⟩
theorem decZp (b : Byte) : Statement (.decZp b) := ⟨rfl, decide_eq_true b.isLt⟩
theorem decZpX (b : Byte) : Statement (.decZpX b) := ⟨rfl, decide_eq_true b.isLt⟩
theorem decAbs (w : Word) : Statement (.decAbs w) := ⟨rfl, decide_eq_true w.isLt⟩
theorem decAbsX (w : Word) : Statement (.decAbsX w) := ⟨rfl, decide_eq_true w.isLt⟩
theorem inx : Statement .inx := ⟨rfl, rfl⟩
theorem iny : Statement .iny := ⟨rfl, rfl⟩
theorem dex : Statement .dex := ⟨rfl, rfl⟩
theorem dey : Statement .dey := ⟨rfl, rfl⟩
theorem ldaImm (b : Byte) : Statement (.ldaImm b) := ⟨rfl, decide_eq_true b.isLt⟩
theorem ldaZp (b : Byte) : Statement (.ldaZp b) := ⟨rfl, decide_eq_true b.isLt⟩
theorem ldaZpX (b : Byte) : Statement (.ldaZpX b) := ⟨rfl, decide_eq_true b.isLt⟩
theorem ldaAbs (w : Word) : Statement (.ldaAbs w) := ⟨rfl, decide_eq_true w.isLt⟩
theorem ldaAbsX (w : Word) : Statement (.ldaAbsX w) := ⟨rfl, decide_eq_true w.isLt⟩
theorem ldaAbsY (w : Word) : Statement (.ldaAbsY w) := ⟨rfl, decide_eq_true w.isLt⟩
theorem ldaIndX (b : Byte) : Statement (.ldaIndX b) := ⟨rfl, decide_eq_true b.isLt⟩
theorem ldaIndY (b : Byte) : Statement (.ldaIndY b) := ⟨rfl, decide_eq_true b.isLt⟩
theorem ldxImm (b : Byte) : Statement (.ldxImm b) := ⟨rfl, decide_eq_true b.isLt⟩
theorem ldxZp (b : Byte) : Statement (.ldxZp b) := ⟨rfl, decide_eq_true b.isLt⟩
theorem ldxZpY (b : Byte) : Statement (.ldxZpY b) := ⟨rfl, decide_eq_true b.isLt⟩
theorem ldxAbs (w : Word) : Statement (.ldxAbs w) := ⟨rfl, decide_eq_true w.isLt⟩
theorem ldxAbsY (w : Word) : Statement (.ldxAbsY w) := ⟨rfl, decide_eq_true w.isLt⟩
theorem ldyImm (b : Byte) : Statement (.ldyImm b) := ⟨rfl, decide_eq_true b.isLt⟩
theorem ldyZp (b : Byte) : Statement (.ldyZp b) := ⟨rfl, decide_eq_true b.isLt⟩
theorem ldyZpX (b : Byte) : Statement (.ldyZpX b) := ⟨rfl, decide_eq_true b.isLt⟩
theorem ldyAbs (w : Word) : Statement (.ldyAbs w) := ⟨rfl, decide_eq_true w.isLt⟩
theorem ldyAbsX (w : Word) : Statement (.ldyAbsX w) := ⟨rfl, decide_eq_true w.isLt⟩
theorem staZp (b : Byte) : Statement (.staZp b) := ⟨rfl, decide_eq_true b.isLt⟩
theorem staZpX (b : Byte) : Statement (.staZpX b) := ⟨rfl, decide_eq_true b.isLt⟩
theorem staAbs (w : Word) : Statement (.staAbs w) := ⟨rfl, decide_eq_true w.isLt⟩
theorem staAbsX (w : Word) : Statement (.staAbsX w) := ⟨rfl, decide_eq_true w.isLt⟩
theorem staAbsY (w : Word) : Statement (.staAbsY w) := ⟨rfl, decide_eq_true w.isLt⟩
theorem staIndX (b : Byte) : Statement (.staIndX b) := ⟨rfl, decide_eq_true b.isLt⟩
theorem staIndY (b : Byte) : Statement (.staIndY b) := ⟨rfl, decide_eq_true b.isLt⟩
theorem stxZp (b : Byte) : Statement (.stxZp b) := ⟨rfl, decide_eq_true b.isLt⟩
theorem stxZpY (b : Byte) : Statement (.stxZpY b) := ⟨rfl, decide_eq_true b.isLt⟩
theorem stxAbs (w : Word) : Statement (.stxAbs w) := ⟨rfl, decide_eq_true w.isLt⟩
theorem styZp (b : Byte) : Statement (.styZp b) := ⟨rfl, decide_eq_true b.isLt⟩
theorem styZpX (b : Byte) : Statement (.styZpX b) := ⟨rfl, decide_eq_true b.isLt⟩
theorem styAbs (w : Word) : Statement (.styAbs w) := ⟨rfl, decide_eq_true w.isLt⟩
theorem tax : Statement .tax := ⟨rfl, rfl⟩
theorem tay : Statement .tay := ⟨rfl, rfl⟩
theorem txa : Statement .txa := ⟨rfl, rfl⟩
theorem tya : Statement .tya := ⟨rfl, rfl⟩
theorem tsx : Statement .tsx := ⟨rfl, rfl⟩
theorem txs : Statement .txs := ⟨rfl, rfl⟩
theorem bcc (b : Byte) : Statement (.bcc b) := ⟨rfl, decide_eq_true b.isLt⟩
theorem bcs (b : Byte) : Statement (.bcs b) := ⟨rfl, decide_eq_true b.isLt⟩
theorem beq (b : Byte) : Statement (.beq b) := ⟨rfl, decide_eq_true b.isLt⟩
theorem bne (b : Byte) : Statement (.bne b) := ⟨rfl, decide_eq_true b.isLt⟩
theorem bmi (b : Byte) : Statement (.bmi b) := ⟨rfl, decide_eq_true b.isLt⟩
theorem bpl (b : Byte) : Statement (.bpl b) := ⟨rfl, decide_eq_true b.isLt⟩
theorem bvc (b : Byte) : Statement (.bvc b) := ⟨rfl, decide_eq_true b.isLt⟩
theorem bvs (b : Byte) : Statement (.bvs b) := ⟨rfl, decide_eq_true b.isLt⟩
theorem jmpAbs (w : Word) : Statement (.jmpAbs w) := ⟨rfl, decide_eq_true w.isLt⟩
theorem jmpInd (w : Word) : Statement (.jmpInd w) := ⟨rfl, decide_eq_true w.isLt⟩
theorem jsr (w : Word) : Statement (.jsr w) := ⟨rfl, decide_eq_true w.isLt⟩
theorem rts : Statement .rts := ⟨rfl, rfl⟩
theorem pha : Statement .pha := ⟨rfl, rfl⟩
theorem pla : Statement .pla := ⟨rfl, rfl⟩
theorem php : Statement .php := ⟨rfl, rfl⟩
theorem plp : Statement .plp := ⟨rfl, rfl⟩
theorem sec : Statement .sec := ⟨rfl, rfl⟩
theorem clc : Statement .clc := ⟨rfl, rfl⟩
theorem sed : Statement .sed := ⟨rfl, rfl⟩
theorem cld : Statement .cld := ⟨rfl, rfl⟩
theorem sei : Statement .sei := ⟨rfl, rfl⟩
theorem cli : Statement .cli := ⟨rfl, rfl⟩
theorem clv : Statement .clv := ⟨rfl, rfl⟩
theorem brk : Statement .brk := ⟨rfl, rfl⟩
theorem rti : Statement .rti := ⟨rfl, rfl⟩
theorem nop : Statement .nop := ⟨rfl, rfl⟩

end Sys2Proof.Laws.EncodedLength
end

