-- ==== Sys2Proof/Laws/Step.lean ====
section
/-! SUPPORT. Fetching and decoding, said once: what a step fetches is what the decoder reads from the bytes at PC. -/

namespace Sys2Proof.Machine

variable (s : State)

@[simp] theorem fetch8_fst : (fetch8 s).1 = s.readMem s.pc := rfl
@[simp] theorem fetch8_snd : (fetch8 s).2 = s.setPC (s.pc + 1) := rfl

theorem fetchInstr_error {s : State} (h : opcodeForm (s.readMem s.pc) = none) :
    fetchInstr s = .error (s.readMem s.pc, s.setPC (s.pc + 1)) := by
  simp [fetchInstr, h]
  rfl

theorem fetchInstr_i1 {s : State} {i : Instr} (h : opcodeForm (s.readMem s.pc) = some (.i1 i)) :
    fetchInstr s = .ok (i, s.setPC (s.pc + 1)) := by
  simp [fetchInstr, h]

theorem fetchInstr_b2 {s : State} {k : Byte → Instr} (h : opcodeForm (s.readMem s.pc) = some (.b2 k)) :
    fetchInstr s = .ok (k (s.readMem (s.pc + 1)), s.setPC (s.pc + 2)) := by
  simp [fetchInstr, h, State.setPC, BitVec.add_assoc]
  rfl

theorem fetchInstr_w3 {s : State} {k : Word → Instr} (h : opcodeForm (s.readMem s.pc) = some (.w3 k)) :
    fetchInstr s =
      .ok (k (wordOf (s.readMem (s.pc + 2)) (s.readMem (s.pc + 1))), s.setPC (s.pc + 3)) := by
  simp [fetchInstr, fetch16, h, State.setPC, BitVec.add_assoc]
  rfl

/-- A step that answers a next state ran the instruction it fetched. -/
theorem step_next {s t : State} (h : step s = .next t) :
    ∃ i s1, fetchInstr s = .ok (i, s1) ∧ exec i s1 = .next t := by
  unfold step at h
  split at h
  · rename_i i s1 hf
    exact ⟨i, s1, hf, h⟩
  · cases h

/-- What a fetch gives differs from the state only in PC. -/
theorem fetchInstr_ok {s s1 : State} {i : Instr} (h : fetchInstr s = .ok (i, s1)) : ∃ pc, s1 = s.setPC pc := by
  cases hop : opcodeForm (s.readMem s.pc) with
  | none => rw [fetchInstr_error hop] at h; cases h
  | some f =>
    cases f with
    | i1 i => rw [fetchInstr_i1 hop] at h; cases h; exact ⟨_, rfl⟩
    | b2 k => rw [fetchInstr_b2 hop] at h; cases h; exact ⟨_, rfl⟩
    | w3 k => rw [fetchInstr_w3 hop] at h; cases h; exact ⟨_, rfl⟩

end Sys2Proof.Machine
end

