-- ==== Sys2Proof/Tests/Slice0.lean ====
section
/-! SUPPORT. Tests. Ill-formed bytes are refused; the word of every opcode, written out from the table of
`30_encoding.md` R85, decodes to its instruction; single steps give what the vectors of `95_test_vectors.md` say (each
theorem names its vector); and for every statement with hypotheses a concrete state and operands that meet them. -/

namespace Sys2Proof.Tests

open Sys2Proof.Machine Sys2Proof.Claims

/-- The default start state of `95_test_vectors.md` section 0, with bytes at PC and further bytes in memory. -/
def start (pc : Word) (bytes : List Byte) (cells : List (Word × Byte)) : State :=
  cells.foldl (fun s c => s.writeMem c.1 c.2)
    (storeBytes bytes pc { State.construction with pc := pc, sp := 0xFD, p := 0x20 })

/-- What one step makes of a state, as far as `f` shows it. -/
def after {α : Type} (f : State → α) (s : State) : Option α :=
  match step s with
  | .next t => some (f t)
  | .fault _ => none
  | .refused _ => none

/-- The opcode byte and the state of a fault. -/
def faultOf (s : State) : Option (Byte × State) :=
  match step s with
  | .fault (.unimplementedOpcode op t) => some (op, t)
  | .next _ => none
  | .refused _ => none

/-- The instruction that exactly these bytes are. -/
def dec (bs : List Byte) : Option Instr :=
  match decode bs with
  | .ok (i, []) => some i
  | .ok (_, _ :: _) => none
  | .error _ => none

-- Ill-formed bytes (R80, R83, R86)

theorem test_refuses_no_bytes : wellFormedBytes [] = false := by decide
theorem test_refuses_unassigned_opcode :
    wellFormedBytes [0x02] = false ∧ wellFormedBytes [0x89, 0x00] = false := by decide
theorem test_refuses_missing_operand :
    wellFormedBytes [0xA9] = false ∧ wellFormedBytes [0x4C, 0x00] = false := by decide
theorem test_refuses_extra_byte :
    wellFormedBytes [0xEA, 0x00] = false ∧ wellFormedBytes [0xA9, 0x00, 0x00] = false := by decide
theorem test_accepts_whole_instructions :
    wellFormedBytes [0x00] = true ∧ wellFormedBytes [0xFF] = false ∧ wellFormedBytes [0xA9, 0xFF] = true ∧
      wellFormedBytes [0x4C, 0xFF, 0xFF] = true := by decide
theorem test_decoder_refuses_by_name :
    (match decode [0x02] with | .error e => some e | .ok _ => none) = some (.unassignedOpcode 0x02) := by decide

-- The word of every opcode, from R85; the first of each family written bit by bit

theorem test_decode_adc_sbc :
    ∀ r ∈ [(([0b01101001, 0x34] : List Byte), Instr.adcImm 0x34), ([0x65, 0x34], .adcZp 0x34),
      ([0x75, 0x34], .adcZpX 0x34), ([0x6D, 0x34, 0x12], .adcAbs 0x1234),
      ([0x7D, 0x34, 0x12], .adcAbsX 0x1234), ([0x79, 0x34, 0x12], .adcAbsY 0x1234),
      ([0x61, 0x34], .adcIndX 0x34), ([0x71, 0x34], .adcIndY 0x34), ([0xE9, 0x34], .sbcImm 0x34),
      ([0xE5, 0x34], .sbcZp 0x34), ([0xF5, 0x34], .sbcZpX 0x34), ([0xED, 0x34, 0x12], .sbcAbs 0x1234),
      ([0xFD, 0x34, 0x12], .sbcAbsX 0x1234), ([0xF9, 0x34, 0x12], .sbcAbsY 0x1234),
      ([0xE1, 0x34], .sbcIndX 0x34), ([0xF1, 0x34], .sbcIndY 0x34)],
    dec r.1 = some r.2 := by decide

theorem test_decode_and_ora :
    ∀ r ∈ [(([0b00101001, 0x34] : List Byte), Instr.andImm 0x34), ([0x25, 0x34], .andZp 0x34),
      ([0x35, 0x34], .andZpX 0x34), ([0x2D, 0x34, 0x12], .andAbs 0x1234),
      ([0x3D, 0x34, 0x12], .andAbsX 0x1234), ([0x39, 0x34, 0x12], .andAbsY 0x1234),
      ([0x21, 0x34], .andIndX 0x34), ([0x31, 0x34], .andIndY 0x34), ([0x09, 0x34], .oraImm 0x34),
      ([0x05, 0x34], .oraZp 0x34), ([0x15, 0x34], .oraZpX 0x34), ([0x0D, 0x34, 0x12], .oraAbs 0x1234),
      ([0x1D, 0x34, 0x12], .oraAbsX 0x1234), ([0x19, 0x34, 0x12], .oraAbsY 0x1234),
      ([0x01, 0x34], .oraIndX 0x34), ([0x11, 0x34], .oraIndY 0x34)],
    dec r.1 = some r.2 := by decide

theorem test_decode_eor_bit :
    ∀ r ∈ [(([0b01001001, 0x34] : List Byte), Instr.eorImm 0x34), ([0x45, 0x34], .eorZp 0x34),
      ([0x55, 0x34], .eorZpX 0x34), ([0x4D, 0x34, 0x12], .eorAbs 0x1234),
      ([0x5D, 0x34, 0x12], .eorAbsX 0x1234), ([0x59, 0x34, 0x12], .eorAbsY 0x1234),
      ([0x41, 0x34], .eorIndX 0x34), ([0x51, 0x34], .eorIndY 0x34), ([0x24, 0x34], .bitZp 0x34),
      ([0x2C, 0x34, 0x12], .bitAbs 0x1234)],
    dec r.1 = some r.2 := by decide

theorem test_decode_shift_rotate :
    ∀ r ∈ [(([0b00000110, 0x34] : List Byte), Instr.aslZp 0x34), ([0x16, 0x34], .aslZpX 0x34),
      ([0x0E, 0x34, 0x12], .aslAbs 0x1234), ([0x1E, 0x34, 0x12], .aslAbsX 0x1234), ([0x0A], .aslAcc),
      ([0x46, 0x34], .lsrZp 0x34), ([0x56, 0x34], .lsrZpX 0x34), ([0x4E, 0x34, 0x12], .lsrAbs 0x1234),
      ([0x5E, 0x34, 0x12], .lsrAbsX 0x1234), ([0x4A], .lsrAcc), ([0x26, 0x34], .rolZp 0x34),
      ([0x36, 0x34], .rolZpX 0x34), ([0x2E, 0x34, 0x12], .rolAbs 0x1234),
      ([0x3E, 0x34, 0x12], .rolAbsX 0x1234), ([0x2A], .rolAcc), ([0x66, 0x34], .rorZp 0x34),
      ([0x76, 0x34], .rorZpX 0x34), ([0x6E, 0x34, 0x12], .rorAbs 0x1234),
      ([0x7E, 0x34, 0x12], .rorAbsX 0x1234), ([0x6A], .rorAcc)],
    dec r.1 = some r.2 := by decide

theorem test_decode_compare :
    ∀ r ∈ [(([0b11001001, 0x34] : List Byte), Instr.cmpImm 0x34), ([0xC5, 0x34], .cmpZp 0x34),
      ([0xD5, 0x34], .cmpZpX 0x34), ([0xCD, 0x34, 0x12], .cmpAbs 0x1234),
      ([0xDD, 0x34, 0x12], .cmpAbsX 0x1234), ([0xD9, 0x34, 0x12], .cmpAbsY 0x1234),
      ([0xC1, 0x34], .cmpIndX 0x34), ([0xD1, 0x34], .cmpIndY 0x34), ([0xE0, 0x34], .cpxImm 0x34),
      ([0xE4, 0x34], .cpxZp 0x34), ([0xEC, 0x34, 0x12], .cpxAbs 0x1234), ([0xC0, 0x34], .cpyImm 0x34),
      ([0xC4, 0x34], .cpyZp 0x34), ([0xCC, 0x34, 0x12], .cpyAbs 0x1234)],
    dec r.1 = some r.2 := by decide

theorem test_decode_incdec :
    ∀ r ∈ [(([0b11100110, 0x34] : List Byte), Instr.incZp 0x34), ([0xF6, 0x34], .incZpX 0x34),
      ([0xEE, 0x34, 0x12], .incAbs 0x1234), ([0xFE, 0x34, 0x12], .incAbsX 0x1234), ([0xC6, 0x34], .decZp 0x34),
      ([0xD6, 0x34], .decZpX 0x34), ([0xCE, 0x34, 0x12], .decAbs 0x1234),
      ([0xDE, 0x34, 0x12], .decAbsX 0x1234), ([0xE8], .inx), ([0xC8], .iny), ([0xCA], .dex), ([0x88], .dey)],
    dec r.1 = some r.2 := by decide

theorem test_decode_load :
    ∀ r ∈ [(([0b10101001, 0x34] : List Byte), Instr.ldaImm 0x34), ([0xA5, 0x34], .ldaZp 0x34),
      ([0xB5, 0x34], .ldaZpX 0x34), ([0xAD, 0x34, 0x12], .ldaAbs 0x1234),
      ([0xBD, 0x34, 0x12], .ldaAbsX 0x1234), ([0xB9, 0x34, 0x12], .ldaAbsY 0x1234),
      ([0xA1, 0x34], .ldaIndX 0x34), ([0xB1, 0x34], .ldaIndY 0x34), ([0xA2, 0x34], .ldxImm 0x34),
      ([0xA6, 0x34], .ldxZp 0x34), ([0xB6, 0x34], .ldxZpY 0x34), ([0xAE, 0x34, 0x12], .ldxAbs 0x1234),
      ([0xBE, 0x34, 0x12], .ldxAbsY 0x1234), ([0xA0, 0x34], .ldyImm 0x34), ([0xA4, 0x34], .ldyZp 0x34),
      ([0xB4, 0x34], .ldyZpX 0x34), ([0xAC, 0x34, 0x12], .ldyAbs 0x1234),
      ([0xBC, 0x34, 0x12], .ldyAbsX 0x1234)],
    dec r.1 = some r.2 := by decide

theorem test_decode_store :
    ∀ r ∈ [(([0b10000101, 0x34] : List Byte), Instr.staZp 0x34), ([0x95, 0x34], .staZpX 0x34),
      ([0x8D, 0x34, 0x12], .staAbs 0x1234), ([0x9D, 0x34, 0x12], .staAbsX 0x1234),
      ([0x99, 0x34, 0x12], .staAbsY 0x1234), ([0x81, 0x34], .staIndX 0x34), ([0x91, 0x34], .staIndY 0x34),
      ([0x86, 0x34], .stxZp 0x34), ([0x96, 0x34], .stxZpY 0x34), ([0x8E, 0x34, 0x12], .stxAbs 0x1234),
      ([0x84, 0x34], .styZp 0x34), ([0x94, 0x34], .styZpX 0x34), ([0x8C, 0x34, 0x12], .styAbs 0x1234)],
    dec r.1 = some r.2 := by decide

theorem test_decode_transfer :
    ∀ r ∈ [(([0b10101010] : List Byte), Instr.tax), ([0xA8], .tay), ([0x8A], .txa), ([0x98], .tya), ([0xBA], .tsx),
      ([0x9A], .txs)],
    dec r.1 = some r.2 := by decide

theorem test_decode_control :
    ∀ r ∈ [(([0b10010000, 0x34] : List Byte), Instr.bcc 0x34), ([0xB0, 0x34], .bcs 0x34), ([0xF0, 0x34], .beq 0x34),
      ([0xD0, 0x34], .bne 0x34), ([0x30, 0x34], .bmi 0x34), ([0x10, 0x34], .bpl 0x34),
      ([0x50, 0x34], .bvc 0x34), ([0x70, 0x34], .bvs 0x34), ([0x4C, 0x34, 0x12], .jmpAbs 0x1234),
      ([0x6C, 0x34, 0x12], .jmpInd 0x1234), ([0x20, 0x34, 0x12], .jsr 0x1234), ([0x60], .rts)],
    dec r.1 = some r.2 := by decide

theorem test_decode_stack_flag :
    ∀ r ∈ [(([0b01001000] : List Byte), Instr.pha), ([0x68], .pla), ([0x08], .php), ([0x28], .plp), ([0x38], .sec),
      ([0x18], .clc), ([0xF8], .sed), ([0xD8], .cld), ([0x78], .sei), ([0x58], .cli), ([0xB8], .clv)],
    dec r.1 = some r.2 := by decide

theorem test_decode_system :
    ∀ r ∈ [(([0b00000000] : List Byte), Instr.brk), ([0x40], .rti), ([0xEA], .nop)],
    dec r.1 = some r.2 := by decide

theorem test_table_word :
    decodeTableWord 24 0x60008D = some (.staAbs 0x6000) ∧ decodeTableWord 16 0x05F0 = some (.beq 0x05) ∧
      decodeTableWord 8 0xEA = some .nop ∧ decodeTableWord 8 0x02 = none := by decide

-- Single steps, from `95_test_vectors.md`

/-- V2. -/
theorem test_adc_overflow :
    after (fun t => (t.a, t.status)) { start 0x0200 [0x69, 0x01] [] with a := 0x7F } = some (0x80, 0xE0) := by decide

/-- V10. -/
theorem test_adc_ignores_decimal :
    after (fun t => (t.a, t.status)) { start 0x0200 [0x69, 0x01] [] with a := 0x09, p := 0x28 } = some (0x0A, 0x28) := by decide

/-- V13. -/
theorem test_sbc_borrow :
    after (fun t => (t.a, t.status)) { start 0x0200 [0xE9, 0x05] [] with a := 0x03, p := 0x21 } = some (0xFE, 0xA0) := by decide

/-- V19. -/
theorem test_sbc_ignores_decimal :
    after (fun t => (t.a, t.status)) { start 0x0200 [0xE9, 0x01] [] with a := 0x10, p := 0x29 } = some (0x0F, 0x29) := by decide

/-- V22. -/
theorem test_and :
    after (fun t => (t.a, t.status)) { start 0x0200 [0x29, 0xF0] [] with a := 0x81 } = some (0x80, 0xA0) := by decide

/-- V23. -/
theorem test_ora :
    after (fun t => (t.a, t.status)) { start 0x0200 [0x09, 0x01] [] with a := 0x80 } = some (0x81, 0xA0) := by decide

/-- V26. -/
theorem test_eor :
    after (fun t => (t.a, t.status)) { start 0x0200 [0x49, 0xFF] [] with a := 0x0F } = some (0xF0, 0xA0) := by decide

/-- V27. -/
theorem test_bit_zero_page :
    after (fun t => (t.a, t.status)) { start 0x0200 [0x24, 0x10] [(0x0010, 0xC0)] with a := 0x01 } = some (0x01, 0xE2) := by decide

/-- V28. -/
theorem test_bit_absolute :
    after (fun t => (t.status, t.pc)) { start 0x0200 [0x2C, 0x34, 0x12] [(0x1234, 0x41)] with a := 0xFF, p := 0xA2 } = some (0x60, 0x0203) := by decide

/-- V31. -/
theorem test_asl_accumulator :
    after (fun t => (t.a, t.status)) { start 0x0200 [0x0A] [] with a := 0x40, p := 0x21 } = some (0x80, 0xA0) := by decide

/-- V38. -/
theorem test_asl_memory :
    after (fun t => (t.readMem 0x0010, t.status)) (start 0x0200 [0x06, 0x10] [(0x0010, 0xC0)]) = some (0x80, 0xA1) := by decide

/-- V33. -/
theorem test_lsr_accumulator :
    after (fun t => (t.a, t.status)) { start 0x0200 [0x4A] [] with a := 0x80, p := 0x21 } = some (0x40, 0x20) := by decide

/-- V40. -/
theorem test_lsr_wraps_in_page_zero :
    after (fun t => (t.readMem 0x0001, t.status)) { start 0x0200 [0x56, 0xFF] [(0x0001, 0x02)] with x := 0x02 } = some (0x01, 0x20) := by decide

/-- V35. -/
theorem test_rol_accumulator :
    after (fun t => (t.a, t.status)) { start 0x0200 [0x2A] [] with a := 0x40, p := 0x21 } = some (0x81, 0xA0) := by decide

/-- V37. -/
theorem test_ror_accumulator :
    after (fun t => (t.a, t.status)) { start 0x0200 [0x6A] [] with a := 0x00, p := 0x21 } = some (0x80, 0xA0) := by decide

/-- V39. -/
theorem test_ror_absolute_x :
    after (fun t => (t.readMem 0x1005, t.status)) { start 0x0200 [0x7E, 0x00, 0x10] [(0x1005, 0x03)] with x := 0x05, p := 0x21 } = some (0x81, 0xA1) := by decide

/-- V45. -/
theorem test_cmp_keeps_overflow :
    after (fun t => (t.a, t.status)) { start 0x0200 [0xC9, 0x00] [] with a := 0x80, p := 0x60 } = some (0x80, 0xE1) := by decide

/-- V49. -/
theorem test_cmp_indirect_x :
    after (fun t => (t.a, t.status)) { start 0x0200 [0xC1, 0x40] [(0x0041, 0x20), (0x2000, 0x05)] with a := 0x05 } = some (0x05, 0x23) := by decide

/-- V48. -/
theorem test_cpx :
    after (fun t => (t.status, t.pc)) { start 0x0200 [0xEC, 0x34, 0x12] [(0x1234, 0x80)] with x := 0x7F } = some (0xA0, 0x0203) := by decide

/-- V47. -/
theorem test_cpy :
    after (fun t => (t.status, t.pc)) { start 0x0200 [0xC4, 0x10] [(0x0010, 0x05)] with y := 0x05 } = some (0x23, 0x0202) := by decide

/-- V51. -/
theorem test_inc_keeps_carry_and_overflow :
    after (fun t => (t.readMem 0x0010, t.status)) { start 0x0200 [0xE6, 0x10] [(0x0010, 0x7F)] with p := 0x61 } = some (0x80, 0xE1) := by decide

/-- V54. -/
theorem test_inc_wraps_address :
    after (fun t => (t.readMem 0x0000, t.status)) { start 0x0200 [0xFE, 0xFF, 0xFF] [(0x0000, 0x41)] with x := 0x01 } = some (0x42, 0x20) := by decide

/-- V52. -/
theorem test_dec :
    after (fun t => (t.readMem 0x0010, t.status)) (start 0x0200 [0xC6, 0x10] []) = some (0xFF, 0xA0) := by decide

/-- V55. -/
theorem test_inx :
    after (fun t => (t.x, t.status)) { start 0x0200 [0xE8] [] with x := 0xFF } = some (0x00, 0x22) := by decide

/-- V56. -/
theorem test_iny :
    after (fun t => (t.y, t.status)) { start 0x0200 [0xC8] [] with y := 0x7F } = some (0x80, 0xA0) := by decide

/-- V57. -/
theorem test_dex : after (fun t => (t.x, t.status)) (start 0x0200 [0xCA] []) = some (0xFF, 0xA0) := by decide

/-- V58. -/
theorem test_dey :
    after (fun t => (t.y, t.status)) { start 0x0200 [0x88] [] with y := 0x01 } = some (0x00, 0x22) := by decide

/-- V59. -/
theorem test_lda :
    after (fun t => (t.a, t.status)) { start 0x0200 [0xA9, 0x00] [] with a := 0x55, p := 0xA0 } = some (0x00, 0x22) := by decide

/-- V118. -/
theorem test_lda_operand_fetch_wraps :
    after (fun t => (t.a, t.pc)) (start 0xFFFF [0xA9] [(0x0000, 0x44)]) = some (0x44, 0x0001) := by decide

/-- V61. -/
theorem test_ldx_zero_page_y :
    after (fun t => (t.x, t.status)) { start 0x0200 [0xB6, 0x10] [(0x0005, 0x33)] with y := 0xF5 } = some (0x33, 0x20) := by decide

/-- V62. -/
theorem test_ldy_absolute_x :
    after (fun t => (t.y, t.status)) { start 0x0200 [0xBC, 0xFF, 0x12] [(0x1300, 0x9C)] with x := 0x01 } = some (0x9C, 0xA0) := by decide

/-- V63. -/
theorem test_sta_absolute_y :
    after (fun t => (t.readMem 0x0210, t.status)) { start 0x0300 [0x99, 0x00, 0x02] [] with a := 0xAA, y := 0x10, p := 0x22 } = some (0xAA, 0x22) := by decide

/-- V111. -/
theorem test_sta_indirect_x :
    after (fun t => (t.readMem 0x4400, t.status)) { start 0x0200 [0x81, 0x10] [(0x0006, 0x44)] with a := 0x99, x := 0xF5 } = some (0x99, 0x20) := by decide

/-- V64. -/
theorem test_stx_zero_page_y :
    after (fun t => (t.readMem 0x0010, t.status)) { start 0x0200 [0x96, 0xF0] [] with x := 0x11, y := 0x20 } = some (0x11, 0x20) := by decide

/-- V65. -/
theorem test_sty :
    after (fun t => (t.readMem 0x1234, t.status)) { start 0x0200 [0x8C, 0x34, 0x12] [] with p := 0xA0 } = some (0x00, 0xA0) := by decide

/-- V66. -/
theorem test_tax :
    after (fun t => (t.x, t.status)) { start 0x0200 [0xAA] [] with x := 0x77, p := 0xA0 } = some (0x00, 0x22) := by decide

/-- V67. -/
theorem test_tay :
    after (fun t => (t.y, t.status)) { start 0x0200 [0xA8] [] with a := 0xF0, p := 0x22 } = some (0xF0, 0xA0) := by decide

/-- V68. -/
theorem test_txa :
    after (fun t => (t.a, t.status)) { start 0x0200 [0x8A] [] with x := 0x01, a := 0x80, p := 0xA0 } = some (0x01, 0x20) := by decide

/-- V69. -/
theorem test_tya :
    after (fun t => (t.a, t.status)) { start 0x0200 [0x98] [] with y := 0x80 } = some (0x80, 0xA0) := by decide

/-- V70. -/
theorem test_tsx : after (fun t => (t.x, t.status)) (start 0x0200 [0xBA] []) = some (0xFD, 0xA0) := by decide

/-- V71. -/
theorem test_txs_writes_no_flag :
    after (fun t => (t.sp, t.status)) (start 0x0200 [0x9A] []) = some (0x00, 0x20) := by decide

/-- S1. -/
theorem test_beq_taken :
    after (fun t => t.pc) { start 0x8000 [0xF0, 0x05] [] with p := 0x22 } = some 0x8007 := by decide

/-- V73. -/
theorem test_beq_not_taken : after (fun t => t.pc) (start 0x8000 [0xF0, 0x05] []) = some 0x8002 := by decide

/-- S2. -/
theorem test_bne : after (fun t => t.pc) (start 0x8000 [0xD0, 0xFB] []) = some 0x7FFD := by decide

/-- V74. -/
theorem test_bcc : after (fun t => t.pc) (start 0x8000 [0x90, 0x7F] []) = some 0x8081 := by decide

/-- V75. -/
theorem test_bcs : after (fun t => t.pc) { start 0x8000 [0xB0, 0x80] [] with p := 0x21 } = some 0x7F82 := by decide

/-- V76. -/
theorem test_bmi : after (fun t => t.pc) { start 0x8000 [0x30, 0xFE] [] with p := 0xA0 } = some 0x8000 := by decide

/-- V77. -/
theorem test_bpl : after (fun t => t.pc) (start 0x8000 [0x10, 0x00] []) = some 0x8002 := by decide

/-- V78. -/
theorem test_bvs : after (fun t => t.pc) { start 0xFFF0 [0x70, 0x10] [] with p := 0x60 } = some 0x0002 := by decide

/-- V79. -/
theorem test_bvc_taken : after (fun t => t.pc) (start 0x0005 [0x50, 0xF0] []) = some 0xFFF7 := by decide

/-- V80. -/
theorem test_bvc_not_taken :
    after (fun t => t.pc) { start 0x0300 [0x50, 0x10] [] with p := 0x60 } = some 0x0302 := by decide

/-- V83. -/
theorem test_jmp_absolute_operand_wraps :
    after (fun t => t.pc) (start 0xFFFE [0x4C, 0x00] [(0x0000, 0x20)]) = some 0x2000 := by decide

/-- S3. -/
theorem test_jmp_indirect_page_end :
    after (fun t => t.pc) (start 0x0300 [0x6C, 0xFF, 0x10] [(0x10FF, 0x78), (0x1000, 0x56), (0x1100, 0x99)]) = some 0x5678 := by decide

/-- V82. -/
theorem test_jmp_indirect :
    after (fun t => t.pc) (start 0x0300 [0x6C, 0x00, 0x20] [(0x2000, 0xCD), (0x2001, 0xAB)]) = some 0xABCD := by decide

/-- V84. -/
theorem test_jsr :
    after (fun t => (t.pc, t.readMem 0x01FD, t.readMem 0x01FC)) (start 0x8000 [0x20, 0x00, 0x90] []) = some (0x9000, 0x80, 0x02) := by decide

/-- V85. -/
theorem test_jsr_stack_wraps :
    after (fun t => (t.sp, t.readMem 0x0100, t.readMem 0x01FF)) { start 0x0400 [0x20, 0x00, 0x90] [] with sp := 0x00 } = some (0xFE, 0x04, 0x02) := by decide

/-- V86. -/
theorem test_rts :
    after (fun t => (t.pc, t.sp)) { start 0x9000 [0x60] [(0x01FC, 0x02), (0x01FD, 0x80)] with sp := 0xFB } = some (0x8003, 0xFD) := by decide

/-- V87. -/
theorem test_rts_wraps :
    after (fun t => (t.pc, t.sp)) { start 0x9000 [0x60] [(0x01FC, 0xFF), (0x01FD, 0xFF)] with sp := 0xFB } = some (0x0000, 0xFD) := by decide

/-- V89. -/
theorem test_pha_stack_wraps :
    after (fun t => (t.readMem 0x0100, t.sp)) { start 0x0200 [0x48] [] with a := 0x5A, sp := 0x00 } = some (0x5A, 0xFF) := by decide

/-- V91. -/
theorem test_pla_stack_wraps :
    after (fun t => (t.a, t.sp, t.status)) { start 0x0200 [0x68] [(0x0100, 0x80)] with sp := 0xFF } = some (0x80, 0x00, 0xA0) := by decide

/-- V92. -/
theorem test_php :
    after (fun t => (t.readMem 0x01FD, t.sp, t.status)) { start 0x0200 [0x08] [] with p := 0x24 } = some (0x34, 0xFC, 0x24) := by decide

/-- V94. -/
theorem test_plp_clears_break :
    after (fun t => (t.status, t.sp)) (start 0x0200 [0x28] [(0x01FE, 0xFF)]) = some (0xEF, 0xFE) := by decide

/-- V95. -/
theorem test_plp_forces_bit_five :
    after (fun t => (t.status, t.sp)) { start 0x0200 [0x28] [] with p := 0xFF } = some (0x20, 0xFE) := by decide

/-- V96, from P = 0x20. -/
theorem test_sec : after (fun t => (t.status, t.pc)) (start 0x0200 [0x38] []) = some (0x21, 0x0201) := by decide

/-- V97, from P = 0xFF. -/
theorem test_clc :
    after (fun t => (t.status, t.pc)) { start 0x0200 [0x18] [] with p := 0xFF } = some (0xFE, 0x0201) := by decide

/-- V98, from P = 0x20. -/
theorem test_sed : after (fun t => (t.status, t.pc)) (start 0x0200 [0xF8] []) = some (0x28, 0x0201) := by decide

/-- V99, from P = 0xFF. -/
theorem test_cld :
    after (fun t => (t.status, t.pc)) { start 0x0200 [0xD8] [] with p := 0xFF } = some (0xF7, 0x0201) := by decide

/-- V100, from P = 0x20. -/
theorem test_sei : after (fun t => (t.status, t.pc)) (start 0x0200 [0x78] []) = some (0x24, 0x0201) := by decide

/-- V101, from P = 0xFF. -/
theorem test_cli :
    after (fun t => (t.status, t.pc)) { start 0x0200 [0x58] [] with p := 0xFF } = some (0xFB, 0x0201) := by decide

/-- V102, from P = 0xFF. -/
theorem test_clv :
    after (fun t => (t.status, t.pc)) { start 0x0200 [0xB8] [] with p := 0xFF } = some (0xBF, 0x0201) := by decide

/-- V106. -/
theorem test_rti :
    after (fun t => (t.status, t.pc, t.sp)) { start 0x0500 [0x40] [(0x01FB, 0xB4), (0x01FC, 0x07), (0x01FD, 0x03)] with sp := 0xFA, p := 0x34 } = some (0xA4, 0x0307, 0xFD) := by decide

/-- V107. -/
theorem test_rti_with_no_frame :
    after (fun t => (t.status, t.pc, t.sp)) { start 0x0500 [0x40] [] with p := 0x34 } = some (0x20, 0x0000, 0x00) := by decide

/-- V108. -/
theorem test_nop :
    after (fun t => (t.status, t.pc)) { start 0x0200 [0xEA] [] with p := 0xE3 } = some (0xE3, 0x0201) := by decide

/-- V110. -/
theorem test_lda_indirect_x :
    after (fun t => (t.a, t.status)) { start 0x0200 [0xA1, 0x80] [(0x0011, 0x30), (0x3000, 0x42)] with x := 0x90 } = some (0x42, 0x20) := by decide

/-- V114. -/
theorem test_lda_indirect_y_wraps :
    after (fun t => (t.a, t.status)) { start 0x0200 [0xB1, 0x20] [(0x0020, 0xFF), (0x0021, 0xFF), (0x00FE, 0x7E)] with y := 0xFF } = some (0x7E, 0x20) := by decide

/-- V116. -/
theorem test_lda_absolute_y_wraps :
    after (fun t => (t.a, t.pc)) { start 0x0200 [0xB9, 0xFF, 0xFF] [(0x0001, 0x99)] with y := 0x02 } = some (0x99, 0x0203) := by decide

/-- V117. -/
theorem test_lda_zero_page_x_wraps :
    after (fun t => (t.a, t.status)) { start 0x0200 [0xB5, 0xF0] [(0x0010, 0x01), (0x0110, 0x02)] with x := 0x20 } = some (0x01, 0x20) := by decide

/-- V115. -/
theorem test_sta_indirect_y :
    after (fun t => (t.readMem 0x4003, t.pc)) { start 0x0200 [0x91, 0xFE] [(0x00FF, 0x40)] with a := 0x5E, y := 0x03 } = some (0x5E, 0x0202) := by decide

/-- The state V103 and V104 run BRK in: PC past the opcode byte at 0x0300. -/
def breakStart : State := { start 0x0300 [0x00] [(0xFFFF, 0x05)] with p := 0xA1, pc := 0x0301 }

/-- V103: `VectorOnly`. -/
theorem test_brk_vector_only :
    (fun t : State => (t.pc, t.status, t.sp)) (takeBreak .vectorOnly breakStart) = (0x0500, 0xB5, 0xFD) := by decide

/-- V104: `PushFrame`. -/
theorem test_brk_push_frame :
    (fun t : State => (t.pc, t.sp, t.readMem 0x01FD, t.readMem 0x01FC, t.readMem 0x01FB)) (takeBreak .pushFrame breakStart) =
      (0x0500, 0xFA, 0x03, 0x02, 0xB1) := by decide

/-- V105: SP wraps inside the frame. -/
theorem test_brk_push_frame_stack_wraps :
    (fun t : State => (t.sp, t.readMem 0x0101, t.readMem 0x0100, t.readMem 0x01FF))
      (takeBreak .pushFrame { breakStart with sp := 0x01, p := 0x20 }) = (0xFE, 0x03, 0x02, 0x30) := by decide

/-- V109 for both values of `ZP_PTR_WRAP`: X = 0, pointer at 0xFF. -/
theorem test_indirect_x_pointer_wrap :
    (fun s => (indirectXWith true 0xFF s, indirectXWith false 0xFF s))
      (start 0x0200 [] [(0x00FF, 0x34), (0x0000, 0x12), (0x0100, 0x56)]) = (0x1234, 0x5634) := by decide

/-- V113 for both values of `ZP_PTR_WRAP`: Y = 1, pointer at 0xFF. -/
theorem test_indirect_y_pointer_wrap :
    (fun s => (indirectYWith true 0xFF s, indirectYWith false 0xFF s))
      { start 0x0200 [] [(0x0000, 0x12), (0x0100, 0x34)] with y := 0x01 } = (0x1201, 0x3401) := by decide

/-- The start state of V119 to V124. -/
def faultStart (op : Byte) : State := { start 0x8000 [op] [] with a := 0x01, x := 0x02, y := 0x03, p := 0xE3 }

/-- V119 to V124: PC is past the opcode byte and nothing else has changed. -/
theorem test_unimplemented_opcodes : ∀ op ∈ ([0x02, 0xFF, 0x80, 0x89, 0x1A, 0x9E] : List Byte),
    faultOf (faultStart op) = some (op, { faultStart op with pc := 0x8001 }) := by decide

/-- S19. -/
theorem test_reset : performReset { start 0x0200 [] [(0xFFFC, 0x34), (0xFFFD, 0x12)] with a := 0x09, sp := 0x03, p := 0xFF } =
    { start 0x1234 [] [(0xFFFC, 0x34), (0xFFFD, 0x12)] with p := 0x24 } := by decide

/-- Reset from construction (`10_state.md` R40, R41): the vector bytes are 0x00. -/
theorem test_reset_state : State.reset =
    { a := 0x00, x := 0x00, y := 0x00, sp := 0xFD, pc := 0x0000, p := 0x24, mem := [] } := by decide

/-- `withFetchWord` puts the instruction where the next step fetches it: P1's first instruction, `A9 03`. -/
theorem test_with_fetch_word : after (fun t => (t.a, t.pc)) (State.reset.withFetchWord 16 0x03A9) = some (0x03, 0x0002) := by
  decide

/-- Host accesses wrap (`20_memory.md` R51, R52): a write at 0x10010 of 0x1FF reads back as 0xFF at 0x0010. -/
theorem test_host_access_wraps : hostRead (hostWrite State.reset 0x10010 0x1FF) 0x0010 = 0xFF := by decide

/-- Host write of P forces bit 5 (`10_state.md` R31); S6's byte 0x20 from a write of 0x00. -/
theorem test_host_write_of_p : (hostAct (.writeP 0x00) State.reset).status = 0x20 := by decide

-- Witnesses: for every statement with hypotheses, a state and operands that meet all of them

theorem witness_decode_of_encode : (Instr.staAbs 0x6000).wellFormed = true ∧ Instr.brk.wellFormed = true := by decide

theorem witness_encode_of_decode : decode [0x8D, 0x00, 0x60, 0xEA] = .ok (.staAbs 0x6000, [0xEA]) := rfl

theorem witness_step_runs : decode (start 0xFFFE [0x8D, 0x00, 0x60] []).window = .ok (.staAbs 0x6000, []) := rfl

theorem witness_step_faults : decode (start 0xFFFF [0x02] []).window = .error (.unassignedOpcode 0x02) := rfl

theorem witness_unassigned : (start 0xFFFF [0xFF] []).nextOpcode ∈ unassignedOpcodes ∧
    (start 0x0000 [0x02] []).nextOpcode ∈ unassignedOpcodes ∧ (start 0x0000 [0x00] []).nextOpcode ∉ unassignedOpcodes := by
  decide

theorem witness_fault : step (start 0xFFFF [0x02] []) =
    .fault (.unimplementedOpcode 0x02 { start 0xFFFF [0x02] [] with pc := 0x0000 }) := rfl

theorem witness_in_line : decode (start 0xFFFF [0xEA] []).window = .ok (.nop, [0x00, 0x00]) ∧
    transfersControl .nop (start 0xFFFF [0xEA] []) = false := ⟨rfl, rfl⟩

theorem witness_branch_not_taken : decode (start 0x8000 [0xF0, 0x05] []).window = .ok (.beq 0x05, [0x00]) ∧
    transfersControl (.beq 0x05) (start 0x8000 [0xF0, 0x05] []) = false := ⟨rfl, rfl⟩

theorem witness_invariant_next : (start 0x0200 [0x85, 0x10] []).Inv ∧ StepCompletes (start 0x0200 [0x85, 0x10] []) :=
  ⟨⟨rfl, rfl⟩, _, rfl⟩

theorem witness_invariant_fault : (start 0x0200 [0x02] []).Inv ∧ StepFaults (start 0x0200 [0x02] []) := ⟨⟨rfl, rfl⟩, _, rfl⟩

theorem witness_memories_alike : Memory.wf (Memory.write (Memory.write [] 0xFFFF 0x01) 0x0000 0x02) = true ∧
    Memory.wf [((0x0000 : Nat), (0x02 : Byte)), (0xFFFF, 0x01)] = true ∧
    ∀ addr : Nat, addr < 65536 → Memory.read (Memory.write (Memory.write [] 0xFFFF 0x01) 0x0000 0x02) addr =
      Memory.read [((0x0000 : Nat), (0x02 : Byte)), (0xFFFF, 0x01)] addr := ⟨rfl, rfl, fun _ _ => rfl⟩

/-- The opcodes of the addressing-mode statements, each at an address where a boundary is met: the operand byte or the
effective address wraps. -/
theorem witness_addressing_modes : (start 0xFFFF [0xA9, 0x80] []).nextOpcode = 0xA9 ∧
    (start 0x0200 [0xA5, 0xFF] []).nextOpcode = 0xA5 ∧ { start 0x0200 [0xB5, 0xFF] [] with x := 0x01 }.nextOpcode = 0xB5 ∧
    { start 0x0200 [0xB6, 0xFF] [] with y := 0xFF }.nextOpcode = 0xB6 ∧ (start 0xFFFE [0xAD, 0xFF, 0xFF] []).nextOpcode = 0xAD ∧
    { start 0x0200 [0xBD, 0xFF, 0xFF] [] with x := 0x01 }.nextOpcode = 0xBD ∧
    { start 0x0200 [0xB9, 0xFF, 0xFF] [] with y := 0xFF }.nextOpcode = 0xB9 ∧
    { start 0x0200 [0xA1, 0xFF] [] with x := 0x00 }.nextOpcode = 0xA1 ∧
    { start 0x0200 [0xB1, 0xFF] [] with y := 0xFF }.nextOpcode = 0xB1 ∧ (start 0xFFFE [0xEA] []).nextOpcode = 0xEA := by decide

/-- The two cases of the Relative mode: taken backwards over address 0, and not taken. -/
theorem witness_relative_mode : (start 0x0000 [0xD0, 0x80] []).nextOpcode = 0xD0 ∧
    (start 0x0000 [0xD0, 0x80] []).flag .z = false ∧ { start 0x0000 [0xD0, 0x80] [] with p := 0x22 }.flag .z = true := by decide

/-- Every table of forms lists as many forms as `30_encoding.md` R85 gives the mnemonic. -/
theorem witness_form_counts (b : Byte) (w : Word) (s : State) :
    [(adcForms b w s).length, (sbcForms b w s).length, (andForms b w s).length, (oraForms b w s).length,
      (eorForms b w s).length, (bitForms b w).length, (cmpForms b w s).length, (cpxForms b w).length, (cpyForms b w).length,
      (ldaForms b w s).length, (ldxForms b w s).length, (ldyForms b w s).length, (aslForms b w s).length,
      (lsrForms b w s).length, (rolForms b w s).length, (rorForms b w s).length, (incForms b w s).length,
      (decForms b w s).length, (staForms b w s).length, (stxForms b w s).length, (styForms b w s).length,
      (branchForms b s).length, flagForms.length] =
    [8, 8, 8, 8, 8, 2, 8, 3, 3, 8, 5, 5, 5, 5, 5, 5, 4, 4, 7, 3, 3, 8, 7] := rfl

/-- Both cases of the carry out that `Obligations.AdcThenSbcRestoresA` tells apart (S12 and S13). -/
theorem witness_adc_then_sbc :
    (addWithCarry (.imm 0x20) { start 0x0200 [] [] with a := 0x10 }).flag .c = false ∧
    (addWithCarry (.imm 0x20) { start 0x0200 [] [] with a := 0xF0 }).flag .c = true := by decide

/-- Both cases of the pointer of JMP indirect, and of a branch's condition. -/
theorem witness_jump_and_branch_cases : (0x10FF : Word).toNat % 256 = 255 ∧ (0x2000 : Word).toNat % 256 ≠ 255 ∧
    (branchForms 0x80 (start 0x0000 [] [])).map BranchForm.cond = [true, false, true, false, true, false, true, false] := by
  decide

theorem witness_flag_writers : ∃ t, exec (.ldaImm 0x00) (start 0x0200 [] []) = .next t ∧
    (Instr.ldaImm 0x00).mnemonic ∉ flagWriters .c := ⟨_, rfl, by decide⟩

/-- A flag an instruction neither reads nor writes (D of ADC), and one it writes and does not read (Z of LDA). -/
theorem witness_flag_readers :
    (∃ t, exec (.adcImm 0x01) (start 0x0200 [] []) = .next t ∧ (Instr.adcImm 0x01).mnemonic ∉ flagReaders .d) ∧
    (∃ t, exec (.ldaImm 0x00) (start 0x0200 [] []) = .next t ∧ (Instr.ldaImm 0x00).mnemonic ∉ flagReaders .z ∧
      (Instr.ldaImm 0x00).mnemonic ∈ flagWriters .z) := ⟨⟨_, rfl, by decide⟩, ⟨_, rfl, by decide, by decide⟩⟩

/-- STA meets the premise of every clause about a register: it writes A, X, Y and SP in no state, and stays in line. -/
theorem witness_register_writers : ∃ t, exec (.staZp 0x10) (start 0x0200 [] []) = .next t ∧ ¬writesA (.staZp 0x10) ∧
    (Instr.staZp 0x10).mnemonic ∉ [Mnemonic.ldx, .tax, .inx, .dex, .tsx] ∧
    (Instr.staZp 0x10).mnemonic ∉ [Mnemonic.ldy, .tay, .iny, .dey] ∧ ¬writesSP (.staZp 0x10) ∧
    transfersControl (.staZp 0x10) (start 0x0200 [] []) = false :=
  ⟨_, rfl, fun h => h.elim (fun m => absurd m (by decide)) (fun m => absurd m (by decide)), by decide, by decide,
    fun h => h.elim (fun m => absurd m (by decide)) (fun m => Instr.noConfusion m.1), rfl⟩

/-- An address outside the stored bytes, and the stored address itself. -/
theorem witness_stored_bytes : ∃ t, exec (.staZp 0x10) (start 0x0200 [] []) = .next t ∧
    (0x0011 : Word) ∉ storedAt (.staZp 0x10) (start 0x0200 [] []) ∧ (0x0010 : Word) ∈ storedAt (.staZp 0x10) (start 0x0200 [] []) :=
  ⟨_, rfl, by decide, by decide⟩

end Sys2Proof.Tests
end

/-! Proofs about the state as a whole (`10_state.md`). The invariant of the state through every effect an instruction
has, and through a step. -/

namespace Sys2Proof.Machine

variable {i : Instr} {s t : State}

-- The operations `Laws/Invariant.lean` does not name keep the invariant: each ends in updates that do.

theorem State.Inv.addWithCarry (h : s.Inv) (src : Source) : (addWithCarry src s).Inv :=
  (((h.setA _).setFlag _ _).setFlag _ _).setZN _

theorem State.Inv.subtractWithBorrow (h : s.Inv) (src : Source) : (subtractWithBorrow src s).Inv :=
  (((h.setA _).setFlag _ _).setFlag _ _).setZN _

theorem State.Inv.testBits (h : s.Inv) (src : Source) : (testBits src s).Inv :=
  ((h.setFlag _ _).setFlag _ _).setFlag _ _

theorem State.Inv.compare (h : s.Inv) (reg m : Byte) : (compare reg m s).Inv := (h.setFlag _ _).setZN _

theorem State.Inv.incrementMem (h : s.Inv) (ea : Word) : (incrementMem ea s).Inv := (h.writeMem _ _).setZN _

theorem State.Inv.decrementMem (h : s.Inv) (ea : Word) : (decrementMem ea s).Inv := (h.writeMem _ _).setZN _

theorem State.Inv.jumpToSubroutine (h : s.Inv) (w : Word) : (jumpToSubroutine w s).Inv :=
  ((h.push _).push _).setPC _

theorem State.Inv.returnFromSubroutine (h : s.Inv) : (returnFromSubroutine s).Inv := h.pull.pull.setPC _

theorem State.Inv.pullA (h : s.Inv) : (pullA s).Inv := h.pull.writeAZN _

theorem State.Inv.pullStatus (h : s.Inv) : (pullStatus s).Inv := h.pull.setStatus _

theorem State.Inv.returnFromInterrupt (h : s.Inv) : (returnFromInterrupt s).Inv :=
  (h.pull.setStatus _).pull.pull.setPC _

theorem State.Inv.performReset (h : s.Inv) : (performReset s).Inv :=
  ⟨h.1, (by decide : (0x24 : Byte).getLsbD 5 = true)⟩

/-- Every effect an instruction has keeps the invariant. -/
theorem Effect.inv (he : Effect i s t) (h : s.Inv) : t.Inv := by
  cases he with
  | adc src => exact h.addWithCarry src
  | sbc src => exact h.subtractWithBorrow src
  | toA v => exact h.writeAZN v
  | toX v => exact h.writeXZN v
  | toY v => exact h.writeYZN v
  | bit src => exact h.testBits src
  | shiftAcc out => exact h.writeShifted .acc out
  | shiftMem ea out => exact h.writeShifted (.mem ea) out
  | compare reg m => exact h.compare reg m
  | inc ea => exact h.incrementMem ea
  | dec ea => exact h.decrementMem ea
  | store ea v => exact h.writeMem ea v
  | txs => exact h.setSP _
  | branch cond b => exact h.branch cond b
  | jmpAbs w => exact h.setPC w
  | jmpInd w => exact h.setPC _
  | jsr w => exact h.jumpToSubroutine w
  | rts => exact h.returnFromSubroutine
  | push v => exact h.push v
  | pla => exact h.pullA
  | plp => exact h.pullStatus
  | flag f on => exact h.setFlag f on
  | brk => exact h.takeBreak _
  | rti => exact h.returnFromInterrupt
  | nop => exact h

/-- A step faults only on an unassigned opcode byte, and then has moved PC past that byte and done nothing else
(`60_exceptions.md` R260): no instruction faults. -/
theorem step_fault {r : Fault} (h : step s = .fault r) :
    opcodeForm s.nextOpcode = none ∧ r = .unimplementedOpcode s.nextOpcode (s.setPC (s.pc + 1)) := by
  cases hop : opcodeForm s.nextOpcode with
  | none =>
    rw [step, fetchInstr_error hop] at h
    cases h
    exact ⟨rfl, rfl⟩
  | some form =>
    obtain ⟨i, s1, hf⟩ : ∃ i s1, fetchInstr s = .ok (i, s1) := by
      cases form with
      | i1 i => exact ⟨_, _, fetchInstr_i1 hop⟩
      | b2 k => exact ⟨_, _, fetchInstr_b2 hop⟩
      | w3 k => exact ⟨_, _, fetchInstr_w3 hop⟩
    obtain ⟨t, ht, -⟩ := exec_effect i s1
    simp [step, hf, ht] at h

end Sys2Proof.Machine

namespace Sys2Proof.Claims

open Sys2Proof.Machine

/-- Settles O10: the fetch moves only PC, and whatever the instruction then does is an effect that keeps the
invariant. -/
theorem stepKeepsTheInvariant : Obligations.StepKeepsTheInvariant := by
  intro s hs
  constructor
  · intro t ht
    obtain ⟨i, s1, hfetch, hexec⟩ := step_next ht
    obtain ⟨pc, rfl⟩ := fetchInstr_ok hfetch
    exact (effect_of_exec hexec).inv (hs.setPC pc)
  · intro op t ht
    obtain ⟨-, hr⟩ := step_fault ht
    cases hr
    exact hs.setPC _

/-- Settles O11: construction and reset hold no cell and store P as 0x24; Reset keeps memory and stores P as 0x24. -/
theorem resetAndConstructionMeetTheInvariant : Obligations.ResetAndConstructionMeetTheInvariant :=
  ⟨⟨Memory.wf_nil, by decide⟩, ⟨Memory.wf_nil, by decide⟩, fun _ h => h.performReset⟩

/-- Settles O14: the reset vector is the little-endian word at 0xFFFC, and no field but the six is written. -/
theorem resetLoadsTheResetVector : Obligations.ResetLoadsTheResetVector := fun _ => ⟨rfl, rfl⟩

end Sys2Proof.Claims

/-! Bit 5 of P, and the stack (`10_state.md` R31, R35 to R37). -/

namespace Sys2Proof.Machine

variable (s : State)

-- Bit 5 of P (`10_state.md` R31) in the writers `Laws/Flags.lean` does not name.

theorem State.status_bit5 : s.status.getLsbD 5 = true := by
  simp [State.status, getLsbD_hardwiredOne]

theorem pullStatus_bit5 : (pullStatus s).p.getLsbD 5 = true := State.setStatus_bit5 s.pull.2 _

theorem returnFromInterrupt_bit5 : (returnFromInterrupt s).p.getLsbD 5 = true :=
  State.setStatus_bit5 s.pull.2 _

end Sys2Proof.Machine

namespace Sys2Proof.Claims

open Sys2Proof.Machine

/-- Settles O18: PLP, RTI, a host write of P and a write of one flag all end in `setStatus`, which stores bit 5 as 1. -/
theorem bitFiveOfPIsHardwiredToOne : Obligations.BitFiveOfPIsHardwiredToOne := fun s =>
  ⟨State.status_bit5 s, ⟨_, rfl, pullStatus_bit5 s⟩, ⟨_, rfl, returnFromInterrupt_bit5 s⟩,
    fun _ => State.setStatus_bit5 s _, fun f on => State.setFlag_bit5 s f on⟩

/-- Push changes SP and memory alone (`10_state.md` R36). -/
theorem frame_push (s : State) (v : Byte) : Frame [.sp, .mem] s (s.push v) := by
  intro k hk
  cases k with
  | sp => simp at hk
  | mem => simp at hk
  | flag f => exact State.flag_push s v f
  | a => exact State.push_a s v
  | x => exact State.push_x s v
  | y => exact State.push_y s v
  | pc => exact State.push_pc s v

/-- Pull changes SP alone (`10_state.md` R37). -/
theorem frame_pull (s : State) : Frame [.sp] s s.pull.2 := by
  intro k hk
  cases k with
  | sp => simp at hk
  | mem => exact State.readMem_pull s
  | flag f => exact State.flag_pull s f
  | a => exact State.pull_snd_a s
  | x => exact State.pull_snd_x s
  | y => exact State.pull_snd_y s
  | pc => exact State.pull_snd_pc s

/-- Push stores at the byte SP names and at no other. -/
theorem storesOnlyAt_push (s : State) (v : Byte) : StoresOnlyAt [stackAddr s.sp] s (s.push v) := by
  intro addr haddr
  rw [State.readMem_push, if_neg (by simpa using haddr)]

/-- The stack address in plain arithmetic, one above SP mod 256. -/
theorem stackAddr_succ (sp : Byte) : stackAddr (sp + 1) = BitVec.ofNat 16 (0x0100 + (sp.toNat + 1) % 256) := by
  apply BitVec.eq_of_toNat_eq
  rw [toNat_stackAddr, BitVec.toNat_add, BitVec.toNat_ofNat]
  have := Nat.mod_lt (sp.toNat + 1) (by decide : 0 < 256)
  simp
  omega

/-- Pull after Push gives back the byte pushed. -/
theorem pull_push_fst (s : State) (v : Byte) : (s.push v).pull.1 = v := by
  simp [State.readMem_push]

/-- Settles O19: one rule for each of Push's and Pull's effects, and the two orders cancel. -/
theorem pushStoresThenDecrementsAndPullIncrementsThenReads :
    Obligations.PushStoresThenDecrementsAndPullIncrementsThenReads := by
  intro s v
  refine ⟨toNat_stackAddr s.sp, by simp [State.readMem_push], ?_, storesOnlyAt_push s v, frame_push s v, ?_, ?_,
    frame_pull s, pull_push_fst s v, by simp⟩
  · rw [State.push_sp]
    bv_omega
  · rw [State.pull_snd_sp, BitVec.toNat_add]
    rfl
  · rw [State.pull_fst, stackAddr_succ]

end Sys2Proof.Claims

/-! Which registers an effect keeps (`10_state.md` R21 to R23; `40_fetch_addressing.md` R117). -/

namespace Sys2Proof.Machine

variable {i : Instr} {s t : State}

/-- An effect changes A only for a destination R21 lists (`10_state.md`). -/
theorem Effect.a_kept (he : Effect i s t) (hi : ¬Claims.writesA i) : t.a = s.a := by
  have unlisted : i.mnemonic ∉ [Mnemonic.adc, .sbc, .and, .ora, .eor, .lda, .txa, .tya, .pla] := fun h => hi (.inl h)
  cases he with
  | adc _ h | sbc _ h => simp [h] at unlisted
  | toA v h => simp_all
  | shiftAcc out h => exact absurd (.inr h) hi
  | pla h => simp [h, Instr.mnemonic] at unlisted
  | _ => simp

/-- An effect changes X only for a writer R22 lists. -/
theorem Effect.x_kept (he : Effect i s t) (hi : i.mnemonic ∉ [Mnemonic.ldx, .tax, .inx, .dex, .tsx]) : t.x = s.x := by
  cases he with
  | toX v h => exact absurd h hi
  | _ => simp

/-- An effect changes Y only for a writer R22 lists. -/
theorem Effect.y_kept (he : Effect i s t) (hi : i.mnemonic ∉ [Mnemonic.ldy, .tay, .iny, .dey]) : t.y = s.y := by
  cases he with
  | toY v h => exact absurd h hi
  | _ => simp

/-- BRK moves SP only under `PushFrame` (`49_system.md` R240). -/
theorem takeBreak_sp_of_ne_pushFrame {mode : Config.BrkMode} (h : mode ≠ .pushFrame) :
    (takeBreak mode s).sp = s.sp := by
  cases mode
  · rfl
  · exact absurd rfl h

/-- An effect changes SP only for a writer R23 lists, BRK among them only when it pushes a frame. -/
theorem Effect.sp_kept (he : Effect i s t) (hi : ¬Claims.writesSP i) : t.sp = s.sp := by
  have unlisted : i.mnemonic ∉ [Mnemonic.pha, .php, .pla, .plp, .jsr, .rts, .rti, .txs] := fun h => hi (.inl h)
  cases he with
  | txs h | rts h | pla h | plp h | rti h | jsr _ h => simp [h, Instr.mnemonic] at unlisted
  | push v h => simp_all
  | brk h => exact takeBreak_sp_of_ne_pushFrame fun hm => hi (.inr ⟨h, hm⟩)
  | _ => simp

/-- A branch transfers control exactly when its condition holds (`47_control_transfer.md` R200 to R208). -/
theorem transfersControl_branch {cond : Bool} {b : Byte}
    (h : (i, cond) ∈ [(Instr.bcc b, !s.flag .c), (.bcs b, s.flag .c), (.beq b, s.flag .z), (.bne b, !s.flag .z),
      (.bmi b, s.flag .n), (.bpl b, !s.flag .n), (.bvc b, !s.flag .v), (.bvs b, s.flag .v)]) :
    Claims.transfersControl i s = cond := by
  simp only [List.mem_cons, Prod.mk.injEq, List.not_mem_nil, or_false] at h
  rcases h with h | h | h | h | h | h | h | h <;> obtain ⟨rfl, rfl⟩ := h <;> rfl

/-- An effect moves PC only by a transfer of control (`40_fetch_addressing.md` R117). -/
theorem Effect.pc_kept (he : Effect i s t) (hi : Claims.transfersControl i s = false) : t.pc = s.pc := by
  cases he with
  | branch cond b h =>
    rw [transfersControl_branch h] at hi
    simp [branch_pc, hi]
  | jmpAbs _ h | jmpInd _ h | jsr _ h | rts h | brk h | rti h =>
    simp [h, Claims.transfersControl, Instr.mnemonic] at hi
  | _ => simp

end Sys2Proof.Machine

namespace Sys2Proof.Claims

open Sys2Proof.Machine

/-- Settles O59: an instruction's result is one of the effects, and each effect keeps every register it is not listed
as a writer of. -/
theorem onlyTheirWritersChangeTheRegisters : Obligations.OnlyTheirWritersChangeTheRegisters := by
  intro i s t hexec
  have he := effect_of_exec hexec
  exact ⟨he.a_kept, he.x_kept, he.y_kept, he.sp_kept, he.pc_kept⟩

end Sys2Proof.Claims

/-! Which flags an effect keeps (`10_state.md` R26 to R30, R32, R33). -/

namespace Sys2Proof.Claims

open Sys2Proof.Machine

/-- The flags an instruction writes, by mnemonic, the last written first: the lists of `flagWriters` read the other way
(`mem_flagsWrittenBy`). -/
def flagsWrittenBy : Mnemonic → List Flag
  | .adc | .sbc => [.n, .z, .v, .c]
  | .bit => [.v, .n, .z]
  | .asl | .lsr | .rol | .ror | .cmp | .cpx | .cpy => [.n, .z, .c]
  | .and | .ora | .eor | .inc | .dec | .inx | .iny | .dex | .dey | .lda | .ldx | .ldy | .tax | .tay | .txa | .tya | .tsx
  | .pla => [.n, .z]
  | .sec | .clc => [.c]
  | .sed | .cld => [.d]
  | .sei | .cli => [.i]
  | .clv => [.v]
  | .brk => [.i, .b]
  | .plp | .rti => [.c, .z, .i, .d, .b, .v, .n]
  | .sta | .stx | .sty | .txs | .bcc | .bcs | .beq | .bne | .bmi | .bpl | .bvc | .bvs | .jmp | .jsr | .rts | .pha | .php
  | .nop => []

theorem mem_flagsWrittenBy (m : Mnemonic) (f : Flag) : f ∈ flagsWrittenBy m ↔ m ∈ flagWriters f := by
  cases f <;> cases m <;> decide

theorem mem_allFlags (f : Flag) : f ∈ [Flag.c, .z, .i, .d, .b, .v, .n] := by
  cases f <;> decide

/-- Mnemonics of one effect write the same flags. -/
theorem flagsWrittenBy_of_mem {m : Mnemonic} {ms : List Mnemonic} {fs : List Flag} (h : m ∈ ms)
    (hms : ∀ m ∈ ms, flagsWrittenBy m = fs) : flagsWrittenBy m = fs := hms m h

/-- An effect keeps every flag its mnemonic does not write. -/
theorem flag_kept_of_effect {i : Instr} {s t : State} {f : Flag} (he : Effect i s t)
    (hf : f ∉ flagsWrittenBy i.mnemonic) : t.flag f = s.flag f := by
  cases he with
  | adc src h =>
    rw [h] at hf
    simp_all [flagsWrittenBy, flag_addWithCarry]
  | sbc src h =>
    rw [h] at hf
    simp_all [flagsWrittenBy, flag_subtractWithBorrow]
  | toA v h =>
    rw [flagsWrittenBy_of_mem h (fs := [.n, .z]) (by decide)] at hf
    simp_all [flag_writeAZN]
  | toX v h =>
    rw [flagsWrittenBy_of_mem h (fs := [.n, .z]) (by decide)] at hf
    simp_all [flag_writeXZN]
  | toY v h =>
    rw [flagsWrittenBy_of_mem h (fs := [.n, .z]) (by decide)] at hf
    simp_all [flag_writeYZN]
  | bit src h =>
    rw [h] at hf
    simp_all [flagsWrittenBy, flag_testBits]
  | shiftAcc out h =>
    rw [flagsWrittenBy_of_mem (List.mem_map_of_mem (f := Instr.mnemonic) h) (fs := [.n, .z, .c]) (by decide)] at hf
    simp_all [flag_writeShifted]
  | shiftMem ea out h =>
    rw [flagsWrittenBy_of_mem h (fs := [.n, .z, .c]) (by decide)] at hf
    simp_all [flag_writeShifted]
  | compare reg m h =>
    rw [flagsWrittenBy_of_mem h (fs := [.n, .z, .c]) (by decide)] at hf
    simp_all [flag_compare]
  | inc ea h =>
    rw [h] at hf
    simp_all [flagsWrittenBy, flag_incrementMem]
  | dec ea h =>
    rw [h] at hf
    simp_all [flagsWrittenBy, flag_decrementMem]
  | flag g on h =>
    have hg : g ∈ flagsWrittenBy i.mnemonic :=
      (by decide : ∀ p ∈ [(Flag.c, Mnemonic.sec), (.c, .clc), (.d, .sed), (.d, .cld), (.i, .sei), (.i, .cli),
        (.v, .clv)], p.1 ∈ flagsWrittenBy p.2) _ h
    rw [State.flag_setFlag, if_neg (by rintro rfl; exact hf hg)]
  | pla h =>
    rw [h] at hf
    simp_all [flagsWrittenBy, Instr.mnemonic, flag_pullA]
  | plp h | rti h =>
    subst h
    exact absurd (mem_allFlags f) hf
  | brk h =>
    rw [h] at hf
    simp_all [flagsWrittenBy, Instr.mnemonic, flag_takeBreak]
  | _ => simp

/-- Settles O57: every effect keeps the flags it is not listed as a writer of. -/
theorem onlyItsWritersChangeAFlag : Obligations.OnlyItsWritersChangeAFlag := by
  intro i s t f hexec hf
  exact flag_kept_of_effect (effect_of_exec hexec) (mt (mem_flagsWrittenBy i.mnemonic f).1 hf)

end Sys2Proof.Claims

/-! Which flags an instruction depends on (`10_state.md` R26 to R30, R32, R33; `41_arithmetic.md` R133): a flag written
before an operation that does not read it may as well be written after. -/

namespace Sys2Proof.Machine

variable (s : State) (f : Flag) (on : Bool)

/-- Writing a flag twice leaves the second value. -/
theorem State.setFlag_setFlag_same (on' : Bool) : (s.setFlag f on).setFlag f on' = s.setFlag f on' := by
  refine State.ext_flags rfl rfl rfl rfl rfl rfl (fun g => ?_) (by simp only [State.setFlag_bit5])
  simp only [State.flag_setFlag]
  split <;> rfl

/-- Writes of two flags commute. -/
theorem State.setFlag_comm {f g : Flag} (h : f ≠ g) (on on' : Bool) :
    (s.setFlag f on).setFlag g on' = (s.setFlag g on').setFlag f on := by
  refine State.ext_flags rfl rfl rfl rfl rfl rfl (fun k => ?_) (by simp only [State.setFlag_bit5])
  simp only [State.flag_setFlag]
  by_cases hk : k = g
  · simp [hk, h.symm]
  · simp [hk]

/-- The byte PHP and BRK push has bit 4 forced, so it does not show B (`10_state.md` R30). -/
theorem pushedStatus_setFlag_b : pushedStatus (s.setFlag .b on) = pushedStatus s := by
  apply BitVec.eq_of_getLsbD_eq
  intro k hk
  simp only [pushedStatus, State.status, State.setFlag, State.setStatus_p, BitVec.getLsbD_or, getLsbD_setBit _ on hk,
    Flag.bit]
  by_cases h4 : k = 4
  · simp [h4]
  · simp [h4, Bool.or_assoc]

/-- Two states a flag write apart: `u` is `t` with flag `f` set to `on`, or `t` itself where `f` is among the flags
written since. -/
def State.FlagApart (f : Flag) (on : Bool) (written : List Flag) (t u : State) : Prop :=
  u = if f ∈ written then t else t.setFlag f on

variable {s f on} {t u : State} {written : List Flag}

theorem State.FlagApart.start : State.FlagApart f on [] s (s.setFlag f on) := rfl

/-- An update that commutes with the write of the flag keeps the two states as far apart as they were. -/
theorem State.FlagApart.map (h : State.FlagApart f on written t u) (op : State → State)
    (hop : ∀ v : State, op (v.setFlag f on) = (op v).setFlag f on) : State.FlagApart f on written (op t) (op u) := by
  by_cases hf : f ∈ written
  · simp_all [State.FlagApart]
  · simp_all [State.FlagApart]

/-- A write of `f` itself brings the two states together; a write of another flag keeps them apart. -/
theorem State.FlagApart.setFlag (h : State.FlagApart f on written t u) (g : Flag) (on' : Bool) :
    State.FlagApart f on (g :: written) (t.setFlag g on') (u.setFlag g on') := by
  unfold State.FlagApart at *
  by_cases hfg : f = g
  · subst hfg
    split at h <;> simp [h, State.setFlag_setFlag_same]
  · split at h <;> simp_all [State.setFlag_comm _ hfg]

theorem State.FlagApart.setZN (h : State.FlagApart f on written t u) (v : Byte) :
    State.FlagApart f on (.n :: .z :: written) (t.setZN v) (u.setZN v) :=
  (h.setFlag _ _).setFlag _ _

theorem State.FlagApart.of_eq (h : u = t) (hf : f ∈ written) : State.FlagApart f on written t u := by
  rw [State.FlagApart, if_pos hf, h]

end Sys2Proof.Machine

namespace Sys2Proof.Claims

open Sys2Proof.Machine

section Operations

variable {s : State} {f : Flag} {on : Bool}

-- Each shared operation from `s` and from `s` with `f` written first, on the same operand. Where the operation reads a
-- flag, the hypothesis says that `f` is not it.

theorem flagApart_addWithCarry (src : Source) (hc : (s.setFlag f on).flag .c = s.flag .c) :
    State.FlagApart f on [.n, .z, .v, .c] (addWithCarry src s) (addWithCarry src (s.setFlag f on)) := by
  simp only [addWithCarry, hc, Source.read_setFlag, State.setFlag_a]
  exact (((State.FlagApart.start.map (·.setA _) fun _ => rfl).setFlag _ _).setFlag _ _).setZN _

theorem flagApart_subtractWithBorrow (src : Source) (hc : (s.setFlag f on).flag .c = s.flag .c) :
    State.FlagApart f on [.n, .z, .v, .c] (subtractWithBorrow src s) (subtractWithBorrow src (s.setFlag f on)) := by
  simp only [subtractWithBorrow, hc, Source.read_setFlag, State.setFlag_a]
  exact (((State.FlagApart.start.map (·.setA _) fun _ => rfl).setFlag _ _).setFlag _ _).setZN _

theorem flagApart_writeAZN (v : Byte) :
    State.FlagApart f on [.n, .z] (writeAZN v s) (writeAZN v (s.setFlag f on)) :=
  (State.FlagApart.start.map (·.setA v) fun _ => rfl).setZN v

theorem flagApart_writeXZN (v : Byte) :
    State.FlagApart f on [.n, .z] (writeXZN v s) (writeXZN v (s.setFlag f on)) :=
  (State.FlagApart.start.map (·.setX v) fun _ => rfl).setZN v

theorem flagApart_writeYZN (v : Byte) :
    State.FlagApart f on [.n, .z] (writeYZN v s) (writeYZN v (s.setFlag f on)) :=
  (State.FlagApart.start.map (·.setY v) fun _ => rfl).setZN v

theorem flagApart_testBits (src : Source) :
    State.FlagApart f on [.v, .n, .z] (testBits src s) (testBits src (s.setFlag f on)) := by
  simp only [testBits, Source.read_setFlag, State.setFlag_a]
  exact ((State.FlagApart.start.setFlag _ _).setFlag _ _).setFlag _ _

theorem flagApart_compare (reg m : Byte) :
    State.FlagApart f on [.n, .z, .c] (compare reg m s) (compare reg m (s.setFlag f on)) :=
  (State.FlagApart.start.setFlag _ _).setZN _

theorem flagApart_writeShifted (pl : Place) (out : ShiftOut) :
    State.FlagApart f on [.n, .z, .c] (writeShifted pl out s) (writeShifted pl out (s.setFlag f on)) :=
  ((State.FlagApart.start.setFlag _ _).map (pl.write out.r) fun _ => by cases pl <;> rfl).setZN _

theorem flagApart_shiftLeft (pl : Place) :
    State.FlagApart f on [.n, .z, .c] (shiftLeft pl s) (shiftLeft pl (s.setFlag f on)) := by
  simp only [shiftLeft, Place.read_setFlag]
  exact flagApart_writeShifted pl _

theorem flagApart_shiftRight (pl : Place) :
    State.FlagApart f on [.n, .z, .c] (shiftRight pl s) (shiftRight pl (s.setFlag f on)) := by
  simp only [shiftRight, Place.read_setFlag]
  exact flagApart_writeShifted pl _

theorem flagApart_rotateLeft (pl : Place) (hc : (s.setFlag f on).flag .c = s.flag .c) :
    State.FlagApart f on [.n, .z, .c] (rotateLeft pl s) (rotateLeft pl (s.setFlag f on)) := by
  simp only [rotateLeft, Place.read_setFlag, hc]
  exact flagApart_writeShifted pl _

theorem flagApart_rotateRight (pl : Place) (hc : (s.setFlag f on).flag .c = s.flag .c) :
    State.FlagApart f on [.n, .z, .c] (rotateRight pl s) (rotateRight pl (s.setFlag f on)) := by
  simp only [rotateRight, Place.read_setFlag, hc]
  exact flagApart_writeShifted pl _

theorem flagApart_incrementMem (ea : Word) :
    State.FlagApart f on [.n, .z] (incrementMem ea s) (incrementMem ea (s.setFlag f on)) :=
  (State.FlagApart.start.map (·.writeMem ea _) fun _ => rfl).setZN _

theorem flagApart_decrementMem (ea : Word) :
    State.FlagApart f on [.n, .z] (decrementMem ea s) (decrementMem ea (s.setFlag f on)) :=
  (State.FlagApart.start.map (·.writeMem ea _) fun _ => rfl).setZN _

theorem flagApart_writeMem (ea : Word) (v : Byte) :
    State.FlagApart f on [] (s.writeMem ea v) ((s.setFlag f on).writeMem ea v) :=
  State.FlagApart.start.map (·.writeMem ea v) fun _ => rfl

theorem flagApart_setPC (w : Word) : State.FlagApart f on [] (s.setPC w) ((s.setFlag f on).setPC w) :=
  State.FlagApart.start.map (·.setPC w) fun _ => rfl

theorem flagApart_branch {cond cond' : Bool} (b : Byte) (h : cond' = cond) :
    State.FlagApart f on [] (branch cond b s) (branch cond' b (s.setFlag f on)) := by
  subst h
  cases cond'
  · exact State.FlagApart.start
  · exact flagApart_setPC _

theorem flagApart_pushStatus (hb : f = .b) :
    State.FlagApart f on [] (s.push (pushedStatus s)) ((s.setFlag f on).push (pushedStatus (s.setFlag f on))) := by
  subst hb
  rw [pushedStatus_setFlag_b]
  exact State.FlagApart.start.map (·.push _) fun _ => rfl

theorem pushBreakFrame_setFlag_b : pushBreakFrame (s.setFlag .b on) = (pushBreakFrame s).setFlag .b on := by
  simp only [pushBreakFrame, pushedStatus_setFlag_b]
  rfl

/-- The frame pushed does not show B, and B is then set: BRK gives the same state whatever B was. -/
theorem takeBreak_setFlag_b (mode : Config.BrkMode) : takeBreak mode (s.setFlag .b on) = takeBreak mode s := by
  have frameless (v : State) : takeBreak .vectorOnly (v.setFlag .b on) = takeBreak .vectorOnly v := by
    simp only [takeBreak, State.setFlag_setFlag_same]
  cases mode
  · exact frameless s
  · rw [takeBreak_pushFrame, pushBreakFrame_setFlag_b, frameless, takeBreak_pushFrame]

theorem flagApart_takeBreak (mode : Config.BrkMode) (hb : f = .b) :
    State.FlagApart f on [.i, .b] (takeBreak mode s) (takeBreak mode (s.setFlag f on)) := by
  subst hb
  exact .of_eq (takeBreak_setFlag_b mode) (by decide)

end Operations

/-- A flag a mnemonic reads keeps its value when one it does not read is written. -/
theorem flag_setFlag_of_unread (m : Mnemonic) {f g : Flag} {s : State} {on : Bool} (hm : m ∈ flagReaders g)
    (hr : m ∉ flagReaders f) : (s.setFlag f on).flag g = s.flag g := by
  rw [State.flag_setFlag, if_neg (by rintro rfl; exact hr hm)]

/-- PHP and BRK read every flag but B. -/
theorem eq_b_of_unread_status (m : Mnemonic) (hm : m ∈ [Mnemonic.php, .brk]) {f : Flag} (hr : m ∉ flagReaders f) :
    f = .b := by
  cases f <;> simp_all [flagReaders]

/-- An instruction that does not read `f` gives, from a state with `f` written first, what it gives without, with `f`
written after it; or the very same, where it writes `f` itself. -/
theorem exec_setFlag (i : Instr) (s : State) (f : Flag) (on : Bool) (hr : i.mnemonic ∉ flagReaders f) :
    ∃ t u, exec i s = .next t ∧ exec i (s.setFlag f on) = .next u ∧
      State.FlagApart f on (flagsWrittenBy i.mnemonic) t u := by
  cases i
  case adcImm | adcZp | adcZpX | adcAbs | adcAbsX | adcAbsY | adcIndX | adcIndY =>
    exact ⟨_, _, rfl, rfl, flagApart_addWithCarry _ (flag_setFlag_of_unread .adc (by decide) hr)⟩
  case sbcImm | sbcZp | sbcZpX | sbcAbs | sbcAbsX | sbcAbsY | sbcIndX | sbcIndY =>
    exact ⟨_, _, rfl, rfl, flagApart_subtractWithBorrow _ (flag_setFlag_of_unread .sbc (by decide) hr)⟩
  case andImm | andZp | andZpX | andAbs | andAbsX | andAbsY | andIndX | andIndY | oraImm | oraZp | oraZpX | oraAbs
      | oraAbsX | oraAbsY | oraIndX | oraIndY | eorImm | eorZp | eorZpX | eorAbs | eorAbsX | eorAbsY | eorIndX | eorIndY
      | ldaImm | ldaZp | ldaZpX | ldaAbs | ldaAbsX | ldaAbsY | ldaIndX | ldaIndY | txa | tya | pla =>
    exact ⟨_, _, rfl, rfl, flagApart_writeAZN _⟩
  case ldxImm | ldxZp | ldxZpY | ldxAbs | ldxAbsY | tax | tsx | inx | dex =>
    exact ⟨_, _, rfl, rfl, flagApart_writeXZN _⟩
  case ldyImm | ldyZp | ldyZpX | ldyAbs | ldyAbsX | tay | iny | dey =>
    exact ⟨_, _, rfl, rfl, flagApart_writeYZN _⟩
  case bitZp | bitAbs => exact ⟨_, _, rfl, rfl, flagApart_testBits _⟩
  case cmpImm | cmpZp | cmpZpX | cmpAbs | cmpAbsX | cmpAbsY | cmpIndX | cmpIndY | cpxImm | cpxZp | cpxAbs | cpyImm
      | cpyZp | cpyAbs =>
    exact ⟨_, _, rfl, rfl, flagApart_compare _ _⟩
  case aslZp | aslZpX | aslAbs | aslAbsX | aslAcc => exact ⟨_, _, rfl, rfl, flagApart_shiftLeft _⟩
  case lsrZp | lsrZpX | lsrAbs | lsrAbsX | lsrAcc => exact ⟨_, _, rfl, rfl, flagApart_shiftRight _⟩
  case rolZp | rolZpX | rolAbs | rolAbsX | rolAcc =>
    exact ⟨_, _, rfl, rfl, flagApart_rotateLeft _ (flag_setFlag_of_unread .rol (by decide) hr)⟩
  case rorZp | rorZpX | rorAbs | rorAbsX | rorAcc =>
    exact ⟨_, _, rfl, rfl, flagApart_rotateRight _ (flag_setFlag_of_unread .ror (by decide) hr)⟩
  case incZp | incZpX | incAbs | incAbsX => exact ⟨_, _, rfl, rfl, flagApart_incrementMem _⟩
  case decZp | decZpX | decAbs | decAbsX => exact ⟨_, _, rfl, rfl, flagApart_decrementMem _⟩
  case staZp | staZpX | staAbs | staAbsX | staAbsY | staIndX | staIndY | stxZp | stxZpY | stxAbs | styZp | styZpX
      | styAbs =>
    exact ⟨_, _, rfl, rfl, flagApart_writeMem _ _⟩
  case jmpAbs | jmpInd => exact ⟨_, _, rfl, rfl, flagApart_setPC _⟩
  case bcc => exact ⟨_, _, rfl, rfl, flagApart_branch _ (congrArg not (flag_setFlag_of_unread .bcc (by decide) hr))⟩
  case bcs => exact ⟨_, _, rfl, rfl, flagApart_branch _ (flag_setFlag_of_unread .bcs (by decide) hr)⟩
  case beq => exact ⟨_, _, rfl, rfl, flagApart_branch _ (flag_setFlag_of_unread .beq (by decide) hr)⟩
  case bne => exact ⟨_, _, rfl, rfl, flagApart_branch _ (congrArg not (flag_setFlag_of_unread .bne (by decide) hr))⟩
  case bmi => exact ⟨_, _, rfl, rfl, flagApart_branch _ (flag_setFlag_of_unread .bmi (by decide) hr)⟩
  case bpl => exact ⟨_, _, rfl, rfl, flagApart_branch _ (congrArg not (flag_setFlag_of_unread .bpl (by decide) hr))⟩
  case bvc => exact ⟨_, _, rfl, rfl, flagApart_branch _ (congrArg not (flag_setFlag_of_unread .bvc (by decide) hr))⟩
  case bvs => exact ⟨_, _, rfl, rfl, flagApart_branch _ (flag_setFlag_of_unread .bvs (by decide) hr)⟩
  case jsr w => exact ⟨_, _, rfl, rfl, State.FlagApart.start.map (jumpToSubroutine w) fun _ => rfl⟩
  case rts => exact ⟨_, _, rfl, rfl, State.FlagApart.start.map returnFromSubroutine fun _ => rfl⟩
  case pha => exact ⟨_, _, rfl, rfl, State.FlagApart.start.map (·.push _) fun _ => rfl⟩
  case txs => exact ⟨_, _, rfl, rfl, State.FlagApart.start.map (·.setSP _) fun _ => rfl⟩
  case nop => exact ⟨_, _, rfl, rfl, State.FlagApart.start⟩
  case sec | clc | sed | cld | sei | cli | clv => exact ⟨_, _, rfl, rfl, State.FlagApart.start.setFlag _ _⟩
  case php => exact ⟨_, _, rfl, rfl, flagApart_pushStatus (eq_b_of_unread_status .php (by decide) hr)⟩
  case brk => exact ⟨_, _, rfl, rfl, flagApart_takeBreak _ (eq_b_of_unread_status .brk (by decide) hr)⟩
  case plp | rti => exact ⟨_, _, rfl, rfl, .of_eq rfl (mem_allFlags f)⟩

theorem frame_refl (changed : List Part) (s : State) : Frame changed s s := by
  intro k _
  cases k with
  | mem => exact fun _ => rfl
  | _ => rfl

/-- A write of a flag changes that flag alone. -/
theorem frame_setFlag (s : State) (f : Flag) (on : Bool) : Frame [.flag f] s (s.setFlag f on) := by
  intro k hk
  cases k with
  | flag g => rw [Part.Kept, State.flag_setFlag, if_neg (by simpa using hk)]
  | mem => exact State.readMem_setFlag s f on
  | _ => rfl

/-- Settles O58: the two results are one write of the flag apart, or equal where the instruction writes it. -/
theorem onlyItsReadersDependOnAFlag : Obligations.OnlyItsReadersDependOnAFlag := by
  intro i s t f on ht hr
  obtain ⟨t', u, ht', hu, hapart⟩ := exec_setFlag i s f on hr
  rw [ht] at ht'
  cases ht'
  refine ⟨u, hu, ?_⟩
  rw [← mem_flagsWrittenBy]
  by_cases hf : f ∈ flagsWrittenBy i.mnemonic
  · obtain rfl : u = t := by simpa only [State.FlagApart, if_pos hf] using hapart
    exact ⟨frame_refl _ _, fun _ => rfl⟩
  · obtain rfl : u = t.setFlag f on := by simpa only [State.FlagApart, if_neg hf] using hapart
    exact ⟨frame_setFlag t f on, fun h => absurd h hf⟩

end Sys2Proof.Claims

/-! Proofs about memory (`20_memory.md`). The invariant along any sequence of host requests (R60; `10_state.md` R39). -/

namespace Sys2Proof.Machine

variable {s : State}

/-- Every host action keeps the invariant (`10_state.md` R39): each is an update that does. -/
theorem State.Inv.hostAct (h : s.Inv) (act : HostAction) : (hostAct act s).Inv := by
  cases act with
  | reset => exact h.performReset
  | writeA v => exact h.setA _
  | writeX v => exact h.setX _
  | writeY v => exact h.setY _
  | writeSP v => exact h.setSP _
  | writePC v => exact h.setPC _
  | writeP v => exact h.setStatus _
  | writeByte addr v => exact h.writeMem _ _
  | push v => exact h.push _
  | pull => exact h.pull

/-- One request keeps the invariant, whatever its answer: a fault leaves a state that meets it too. -/
theorem State.Inv.serve (h : s.Inv) (r : Request) : (serve r s).2.Inv := by
  cases r with
  | act a => exact h.hostAct a
  | step =>
    obtain ⟨hnext, hfault⟩ := Claims.stepKeepsTheInvariant s h
    unfold Machine.serve
    cases hstep : step s with
    | next t => exact hnext t hstep
    | fault r =>
      cases r with
      | unimplementedOpcode op t => exact hfault op t hstep
    | refused _ => exact h

end Sys2Proof.Machine

namespace Sys2Proof.Claims

open Sys2Proof.Machine

/-- Settles O12, by induction on the requests: the state each leaves meets the invariant. -/
theorem requestsKeepTheInvariant : Obligations.RequestsKeepTheInvariant := by
  intro rs
  induction rs with
  | nil => exact fun _ h => h
  | cons r rs ih => exact fun s h => ih (serve r s).2 (h.serve r)

end Sys2Proof.Claims

/-! The canonical form of memory is canonical: the list of cells is fixed by what every address reads as (log
entry 9). -/

namespace Sys2Proof.Machine

@[simp] theorem Memory.read_cons_same (c : Host.Cell) (m : Memory) : Memory.read (c :: m) c.1 = c.2 := by
  simp [Memory.read]

theorem Memory.read_cons_of_ne {c : Host.Cell} {a : Nat} (m : Memory) (h : c.1 ≠ a) :
    Memory.read (c :: m) a = Memory.read m a := by
  simp [Memory.read, h]

/-- In canonical form the first cell has the lowest of the addresses that are listed. -/
theorem Memory.head_le_of_read_ne_unlisted {c : Host.Cell} {m : Memory} {a lo : Nat}
    (hm : Memory.wfFrom (c :: m) lo = true) (ha : Memory.read (c :: m) a ≠ Memory.unlisted) : c.1 ≤ a := by
  obtain ⟨-, htop, hc, htail⟩ := (Memory.wfFrom_cons c m lo).1 hm
  have hfrom : Memory.wfFrom (c :: m) c.1 = true := (Memory.wfFrom_cons c m c.1).2 ⟨le_refl _, htop, hc, htail⟩
  exact Nat.le_of_not_lt fun hlt => ha (Memory.read_below _ hfrom hlt)

/-- Canonical memories that read alike have the same first address, hence the same first cell, hence tails that read
alike. -/
theorem Memory.eq_of_read_eq {m m' : Memory} {lo : Nat} (hm : Memory.wfFrom m lo = true)
    (hm' : Memory.wfFrom m' lo = true)
    (hread : ∀ a < 65536, Memory.read m a = Memory.read m' a) : m = m' := by
  induction m generalizing m' lo with
  | nil =>
    cases m' with
    | nil => rfl
    | cons c' m' =>
      obtain ⟨-, htop', hc', -⟩ := (Memory.wfFrom_cons c' m' lo).1 hm'
      exact absurd ((Memory.read_cons_same c' m').symm.trans (hread c'.1 htop').symm) hc'
  | cons c m ih =>
    obtain ⟨-, htop, hc, htail⟩ := (Memory.wfFrom_cons c m lo).1 hm
    have hhead := hread c.1 htop
    rw [Memory.read_cons_same] at hhead
    cases m' with
    | nil => exact absurd hhead hc
    | cons c' m' =>
      obtain ⟨-, htop', hc', htail'⟩ := (Memory.wfFrom_cons c' m' lo).1 hm'
      have hhead' := hread c'.1 htop'
      rw [Memory.read_cons_same] at hhead'
      have haddr : c.1 = c'.1 :=
        Nat.le_antisymm (Memory.head_le_of_read_ne_unlisted hm (hhead'.trans_ne hc'))
          (Memory.head_le_of_read_ne_unlisted hm' (hhead.symm.trans_ne hc))
      have hcell : c = c' := Prod.ext haddr (by rw [hhead, haddr, Memory.read_cons_same])
      subst hcell
      congr 1
      refine ih htail htail' fun a ha => ?_
      by_cases hne : c.1 = a
      · rw [Memory.read_below m htail (by omega), Memory.read_below m' htail' (by omega)]
      · rw [← Memory.read_cons_of_ne m hne, ← Memory.read_cons_of_ne m' hne, hread a ha]

end Sys2Proof.Machine

namespace Sys2Proof.Claims

open Sys2Proof.Machine

/-- Settles O13: the whole address space is the canonical form from address 0. -/
theorem memoriesThatReadAlikeAreEqual : Obligations.MemoriesThatReadAlikeAreEqual :=
  fun _ _ hm hm' hread => Memory.eq_of_read_eq hm hm' hread

end Sys2Proof.Claims

/-! The host's `read` and `write` (`20_memory.md` R51, R52). -/

namespace Sys2Proof.Machine

/-- Two numbers name the same byte iff they are equal mod 65536. -/
theorem ofNat16_eq_iff (a b : Nat) : BitVec.ofNat 16 a = BitVec.ofNat 16 b ↔ a % 65536 = b % 65536 := by
  rw [← BitVec.toNat_inj, BitVec.toNat_ofNat, BitVec.toNat_ofNat]

theorem ofNat8_mod (v : Nat) : BitVec.ofNat 8 (v % 256) = BitVec.ofNat 8 v :=
  BitVec.eq_of_toNat_eq (by simp)

theorem hostRead_mod (s : State) (addr : Nat) : hostRead s (addr % 65536) = hostRead s addr := by
  rw [hostRead, (ofNat16_eq_iff _ _).2 (Nat.mod_mod addr 65536), hostRead]

theorem hostRead_hostWrite (s : State) (addr addr' v : Nat) :
    hostRead (hostWrite s addr v) addr' =
      if addr' % 65536 = addr % 65536 then BitVec.ofNat 8 v else hostRead s addr' := by
  simp only [hostRead, hostWrite, State.readMem_writeMem, ofNat16_eq_iff]

end Sys2Proof.Machine

namespace Sys2Proof.Claims

open Sys2Proof.Machine

/-- A store changes memory alone (`20_memory.md` R52). -/
theorem frame_writeMem (s : State) (addr : Word) (v : Byte) : Frame [.mem] s (s.writeMem addr v) := by
  intro k hk
  cases k with
  | mem => simp at hk
  | flag f => exact State.flag_writeMem s addr v f
  | a => exact State.writeMem_a s addr v
  | x => exact State.writeMem_x s addr v
  | y => exact State.writeMem_y s addr v
  | sp => exact State.writeMem_sp s addr v
  | pc => exact State.writeMem_pc s addr v

/-- Settles O16: a host read and a host write are those of the byte at the address mod 65536. -/
theorem hostWriteThenHostRead : Obligations.HostWriteThenHostRead := by
  intro s addr addr' v
  refine ⟨?_, (hostRead_mod s addr).symm, frame_writeMem s _ _⟩
  rw [hostRead_hostWrite, ofNat8_mod]

end Sys2Proof.Claims

/-! Which bytes an effect keeps (`20_memory.md` R52, R57). -/

namespace Sys2Proof.Claims

open Sys2Proof.Machine

variable {i : Instr} {s t : State}

/-- An instruction that leaves memory alone stores nowhere. -/
theorem storesOnlyAt_of_readMem_eq {addrs : List Word} (h : ∀ addr, t.readMem addr = s.readMem addr) :
    StoresOnlyAt addrs s t :=
  fun addr _ => h addr

theorem storesOnlyAt_writeMem (ea : Word) (v : Byte) : StoresOnlyAt [ea] s (s.writeMem ea v) := by
  intro addr haddr
  exact State.readMem_writeMem_other s v (by simpa using haddr)

theorem storesOnlyAt_writeShifted (ea : Word) (out : ShiftOut) :
    StoresOnlyAt [ea] s (writeShifted (.mem ea) out s) := by
  intro addr haddr
  rw [readMem_writeShifted_mem, if_neg (by simpa using haddr)]

theorem storesOnlyAt_incrementMem (ea : Word) : StoresOnlyAt [ea] s (incrementMem ea s) := by
  intro addr haddr
  rw [readMem_incrementMem, if_neg (by simpa using haddr)]

theorem storesOnlyAt_decrementMem (ea : Word) : StoresOnlyAt [ea] s (decrementMem ea s) := by
  intro addr haddr
  rw [readMem_decrementMem, if_neg (by simpa using haddr)]

/-- JSR stores the two bytes of the return address (`47_control_transfer.md` R211). -/
theorem storesOnlyAt_jumpToSubroutine (w : Word) :
    StoresOnlyAt [stackAddr s.sp, stackAddr (s.sp - 1)] s (jumpToSubroutine w s) := by
  intro addr haddr
  obtain ⟨h0, h1⟩ : addr ≠ stackAddr s.sp ∧ addr ≠ stackAddr (s.sp - 1) := by simpa using haddr
  rw [readMem_jumpToSubroutine, if_neg h1, if_neg h0]

/-- A `PushFrame` BRK stores the three bytes of the frame (`49_system.md` R240). -/
theorem storesOnlyAt_pushBreakFrame :
    StoresOnlyAt [stackAddr s.sp, stackAddr (s.sp - 1), stackAddr (s.sp - 2)] s (pushBreakFrame s) := by
  intro addr haddr
  obtain ⟨h0, h1, h2⟩ : addr ≠ stackAddr s.sp ∧ addr ≠ stackAddr (s.sp - 1) ∧ addr ≠ stackAddr (s.sp - 2) := by
    simpa using haddr
  have hsp : s.sp - 1 - 1 = s.sp - 2 := by rw [BitVec.sub_sub]; rfl
  rw [readMem_pushBreakFrame, hsp, if_neg h2, if_neg h1, if_neg h0]

/-- BRK stores the frame of its mode, and under `VectorOnly` nothing. -/
theorem storesOnlyAt_takeBreak : StoresOnlyAt (storedAt .brk s) s (takeBreak Config.brkMode s) := by
  unfold storedAt
  cases Config.brkMode with
  | vectorOnly => exact storesOnlyAt_of_readMem_eq (readMem_takeBreak_vectorOnly s)
  | pushFrame => exact storesOnlyAt_pushBreakFrame

/-- An effect keeps every byte outside the addresses its instruction stores to. -/
theorem storesOnlyAt_of_effect (he : Effect i s t) : StoresOnlyAt (storedAt i s) s t := by
  cases he with
  | shiftMem ea out _ hs => exact hs ▸ storesOnlyAt_writeShifted ea out
  | inc ea _ hs => exact hs ▸ storesOnlyAt_incrementMem ea
  | dec ea _ hs => exact hs ▸ storesOnlyAt_decrementMem ea
  | store ea v _ hs => exact hs ▸ storesOnlyAt_writeMem ea v
  | push v _ hs => exact hs ▸ storesOnlyAt_push s v
  | jsr w h => exact h ▸ storesOnlyAt_jumpToSubroutine w
  | brk h => exact h ▸ storesOnlyAt_takeBreak
  | _ => exact storesOnlyAt_of_readMem_eq (by simp)

/-- Settles O60: an instruction's result is one of the effects, and each effect stores only where `storedAt` says. -/
theorem onlyStoredBytesChange : Obligations.OnlyStoredBytesChange :=
  fun _ _ _ hexec => storesOnlyAt_of_effect (effect_of_exec hexec)

end Sys2Proof.Claims

/-! Decoding and encoding (`30_encoding.md`). The decoder reads an instruction as an opcode byte that R84 assigns and
the operand bytes of a field (R81); the encoder writes the same two parts. -/

namespace Sys2Proof

/-- `form.Builds field i`: with the operand `field`, the form gives the instruction `i`; a field of another format (R81)
gives none. -/
inductive Form.Builds : Form → Field → Instr → Prop
  | i1 (i : Instr) : Builds (.i1 i) .none i
  | b2 (k : Byte → Instr) (b : Byte) : Builds (.b2 k) (.byte b) (k b)
  | w3 (k : Word → Instr) (w : Word) : Builds (.w3 k) (.word w) (k w)

variable {op : Byte} {form : Form} {field : Field} {i : Instr} {bs rest : List Byte}

/-- Every instruction is what the map of R84 gives at its opcode of R85, with the instruction's own operand: one
lookup a constructor, once the opcode byte is a numeral. -/
theorem opcodeForm_opcode (i : Instr) : ∃ form, opcodeForm i.opcode = some form ∧ form.Builds i.field i := by
  cases i <;> dsimp only [Instr.opcode] <;> exact ⟨_, rfl, by constructor⟩

/-- The decoder reads the bytes of a field (R81, R82) back as the operand. -/
theorem decode_of_builds (hop : opcodeForm op = some form) (hb : form.Builds field i) (rest : List Byte) :
    decode (op :: field.bytes ++ rest) = .ok (i, rest) := by
  cases hb <;> simp [decode, hop, Field.bytes]

/-- What the decoder has read is an assigned opcode byte and the bytes of a field. -/
theorem exists_builds_of_decode (h : decode bs = .ok (i, rest)) :
    ∃ op form field, opcodeForm op = some form ∧ form.Builds field i ∧ bs = op :: field.bytes ++ rest := by
  obtain _ | ⟨op, tail⟩ := bs
  · cases h
  cases hop : opcodeForm op with
  | none => simp [decode, hop] at h
  | some form =>
    refine ⟨op, form, ?_⟩
    cases form with
    | i1 j =>
      obtain ⟨rfl, rfl⟩ : j = i ∧ tail = rest := by simpa [decode, hop] using h
      exact ⟨.none, hop, .i1 j, rfl⟩
    | b2 k =>
      match tail with
      | [] => simp [decode, hop] at h
      | b :: tail =>
        obtain ⟨rfl, rfl⟩ : k b = i ∧ tail = rest := by simpa [decode, hop] using h
        exact ⟨.byte b, hop, .b2 k b, rfl⟩
    | w3 k =>
      match tail with
      | [] | [_] => simp [decode, hop] at h
      | lo :: hi :: tail =>
        obtain ⟨rfl, rfl⟩ : k (wordOf hi lo) = i ∧ tail = rest := by simpa [decode, hop] using h
        exact ⟨.word (wordOf hi lo), hop, .w3 k _, by simp [Field.bytes]⟩

/-- The encoder writes what a form builds as the opcode byte and the bytes of the field. -/
theorem encode_of_builds (hop : opcodeForm op = some form) (hb : form.Builds field i) :
    encode i = op :: field.bytes := by
  have henc := opcodeForm_encodesTo op
  rw [hop] at henc
  cases hb with
  | i1 => exact henc
  | b2 k b => exact henc b
  | w3 k w => exact henc w

/-- The operand types carry the bounds of R81. -/
theorem wellFormed_eq_true (i : Instr) : i.wellFormed = true := by
  unfold Instr.wellFormed
  split
  · rfl
  · next b _ => exact decide_eq_true b.isLt
  · next w _ => exact decide_eq_true w.isLt

@[simp] theorem Field.length_bytes (field : Field) : field.bytes.length = field.width := by
  cases field <;> rfl

/-- R83 announces the length of what the form builds. -/
theorem opcodeLength_of_builds (hop : opcodeForm op = some form) (hb : form.Builds field i) :
    opcodeLength op = some (1 + field.width) := by
  rw [opcodeLength_eq, hop]
  cases hb <;> rfl

/-- As many bytes as the opcode announces (R83) are the bytes of some operand of its form. -/
theorem exists_builds_of_opcodeLength (h : opcodeLength op = some (bs.length + 1)) :
    ∃ form field i, opcodeForm op = some form ∧ form.Builds field i ∧ bs = field.bytes := by
  rw [opcodeLength_eq] at h
  cases hop : opcodeForm op with
  | none => simp [hop] at h
  | some form =>
    refine ⟨form, ?_⟩
    cases form with
    | i1 i =>
      obtain rfl : bs = [] := by simpa [hop] using h
      exact ⟨.none, i, rfl, .i1 i, rfl⟩
    | b2 k =>
      obtain ⟨b, rfl⟩ : ∃ b, bs = [b] := List.length_eq_one_iff.mp (by simpa [hop, eq_comm] using h)
      exact ⟨.byte b, k b, rfl, .b2 k b, rfl⟩
    | w3 k =>
      obtain ⟨lo, hi, rfl⟩ : ∃ lo hi, bs = [lo, hi] := List.length_eq_two.mp (by simpa [hop, eq_comm] using h)
      exact ⟨.word (wordOf hi lo), k (wordOf hi lo), rfl, .w3 k _, by simp [Field.bytes]⟩

end Sys2Proof

namespace Sys2Proof.Claims

/-- Settles O1: the instruction's opcode finds the form that builds it, and the decoder reads its operand bytes back.
Every instruction is well-formed, so the hypothesis is not used. -/
theorem decodeOfEncodeGivesTheInstruction : Obligations.DecodeOfEncodeGivesTheInstruction := by
  intro i rest _
  obtain ⟨form, hop, hb⟩ := opcodeForm_opcode i
  exact decode_of_builds hop hb rest

/-- Settles O2: the opcode byte and the field the decoder read are the ones the encoder writes. -/
theorem encodeOfDecodeGivesTheBytes : Obligations.EncodeOfDecodeGivesTheBytes := by
  intro bs i rest h
  obtain ⟨op, form, field, hop, hb, rfl⟩ := exists_builds_of_decode h
  exact ⟨by rw [encode_of_builds hop hb], wellFormed_eq_true i⟩

/-- Settles O3: a whole instruction is an opcode byte and the bytes of a field its form takes, and these are the strings
of the length R83 announces. -/
theorem decoderAcceptsExactlyWellFormedBytes : Obligations.DecoderAcceptsExactlyWellFormedBytes := by
  intro bs
  constructor
  · rintro ⟨i, h⟩
    obtain ⟨op, form, field, hop, hb, rfl⟩ := exists_builds_of_decode h
    simp [wellFormedBytes, opcodeLength_of_builds hop hb, Nat.add_comm]
  · intro h
    obtain _ | ⟨op, operands⟩ := bs
    · cases h
    obtain ⟨form, field, i, hop, hb, rfl⟩ := exists_builds_of_opcodeLength (beq_iff_eq.mp h)
    exact ⟨i, by simpa using decode_of_builds hop hb []⟩

end Sys2Proof.Claims

/-! Fetching and dispatching an instruction (`40_fetch_addressing.md` R100, R101, R117). -/

namespace Sys2Proof.Machine

variable {s : State} {op : Byte} {i : Instr} {rest : List Byte}

-- A step on an opcode byte of each format (R81): the operand is the bytes after it, and PC is past them.

theorem step_i1 (h : s.nextOpcode = op) (hop : opcodeForm op = some (.i1 i)) :
    step s = exec i (s.setPC (s.pc + 1)) := by
  rw [step, fetchInstr_i1 (h ▸ hop)]

theorem step_b2 {k : Byte → Instr} (h : s.nextOpcode = op) (hop : opcodeForm op = some (.b2 k)) :
    step s = exec (k (s.readMem (s.pc + 1))) (s.setPC (s.pc + 2)) := by
  rw [step, fetchInstr_b2 (h ▸ hop)]

theorem step_w3 {k : Word → Instr} (h : s.nextOpcode = op) (hop : opcodeForm op = some (.w3 k)) :
    step s = exec (k (wordOf (s.readMem (s.pc + 2)) (s.readMem (s.pc + 1)))) (s.setPC (s.pc + 3)) := by
  rw [step, fetchInstr_w3 (h ▸ hop)]

theorem step_unassigned (h : s.nextOpcode = op) (hop : opcodeForm op = none) :
    step s = .fault (.unimplementedOpcode op (s.setPC (s.pc + 1))) := by
  subst h
  rw [step, fetchInstr_error hop]
  rfl

/-- A form builds an instruction of the length its operand field announces (R80). -/
theorem length_of_builds {form : Form} {field : Field} (hop : opcodeForm op = some form)
    (hb : form.Builds field i) : i.length = 1 + field.width := by
  rw [← length_encode, encode_of_builds hop hb, List.length_cons, Field.length_bytes, Nat.add_comm]

/-- A step runs what the decoder reads from the bytes at PC, with PC past it. -/
theorem step_of_decode (h : decode s.window = .ok (i, rest)) :
    step s = exec i (s.setPC (s.pc + BitVec.ofNat 16 i.length)) := by
  obtain ⟨op, form, field, hop, hb, hw⟩ := exists_builds_of_decode h
  rw [length_of_builds hop hb]
  cases hb with
  | i1 =>
    obtain ⟨hnext, -⟩ := List.cons.inj hw
    exact step_i1 hnext hop
  | b2 k b =>
    obtain ⟨hnext, rfl, -⟩ : s.readMem s.pc = op ∧ s.readMem (s.pc + 1) = b ∧ [s.readMem (s.pc + 2)] = rest := by
      simpa [State.window, Field.bytes] using hw
    exact step_b2 hnext hop
  | w3 k w =>
    obtain ⟨hnext, hlo, hhi, -⟩ : s.readMem s.pc = op ∧ s.readMem (s.pc + 1) = loByte w ∧
        s.readMem (s.pc + 2) = hiByte w ∧ rest = [] := by
      simpa [State.window, Field.bytes] using hw
    rw [step_w3 hnext hop, hlo, hhi, wordOf_hiByte_loByte]
    rfl

/-- Three bytes hold every operand, so the decoder refuses the bytes at PC only for an opcode byte R84 leaves out. -/
theorem opcodeForm_of_decode_error (h : decode s.window = .error (.unassignedOpcode op)) :
    s.nextOpcode = op ∧ opcodeForm op = none := by
  cases hop : opcodeForm (s.readMem s.pc) with
  | none =>
    obtain rfl : s.readMem s.pc = op := by simpa [State.window, decode, hop] using h
    exact ⟨rfl, hop⟩
  | some form => cases form <;> simp [State.window, decode, hop] at h

/-- Whether an instruction transfers control does not depend on where it stands. -/
theorem transfersControl_setPC (i : Instr) (s : State) (w : Word) :
    Claims.transfersControl i (s.setPC w) = Claims.transfersControl i s := rfl

end Sys2Proof.Machine

namespace Sys2Proof.Claims

open Sys2Proof.Machine

/-- Settles O5: the fetch reads the same opcode byte and operand bytes as the decoder. -/
theorem stepRunsTheDecodedInstruction : Obligations.StepRunsTheDecodedInstruction := by
  intro s
  refine ⟨fun i rest h => step_of_decode h, fun op h => ?_⟩
  obtain ⟨hnext, hop⟩ := opcodeForm_of_decode_error h
  exact step_unassigned hnext hop

/-- Settles O9: the fetch leaves PC past the instruction, and an effect that transfers no control keeps it there. -/
theorem pcAfterAnInstructionThatStaysInLine : Obligations.PcAfterAnInstructionThatStaysInLine := by
  intro s i rest hdec hline
  obtain ⟨t, hexec, he⟩ := exec_effect i (s.setPC (s.pc + BitVec.ofNat 16 i.length))
  refine ⟨t, (step_of_decode hdec).trans hexec, ?_⟩
  rw [he.pc_kept (by rwa [transfersControl_setPC]), State.setPC_pc, BitVec.toNat_add, BitVec.toNat_ofNat]
  exact Nat.add_mod_mod _ _ _

end Sys2Proof.Claims

/-! The addressing modes in plain arithmetic (`40_fetch_addressing.md` R104 to R109, R114). -/

namespace Sys2Proof

theorem zext16_eq_ofNat (b : Byte) : zext16 b = BitVec.ofNat 16 b.toNat :=
  BitVec.eq_of_toNat_eq (by rw [toNat_zext16, BitVec.toNat_ofNat]; omega)

/-- A word is little-endian (R101). -/
theorem wordOf_eq_ofNat (hi lo : Byte) : wordOf hi lo = BitVec.ofNat 16 (lo.toNat + 256 * hi.toNat) :=
  BitVec.eq_of_toNat_eq (by rw [toNat_wordOf, BitVec.toNat_ofNat]; omega)

theorem toNat_sext16 (b : Byte) : ((sext16 b).toNat : Int) = b.toInt % 65536 := by
  rw [sext16, BitVec.signExtend, BitVec.toNat_ofInt, Int.toNat_of_nonneg (Int.emod_nonneg _ (by decide))]
  rfl

end Sys2Proof

namespace Sys2Proof.Machine

variable (s : State) (b : Byte) (w : Word)

theorem eaZeroPage_eq_ofNat : eaZeroPage b = BitVec.ofNat 16 b.toNat := zext16_eq_ofNat b

theorem eaZeroPageX_eq_ofNat : eaZeroPageX b s = BitVec.ofNat 16 ((b.toNat + s.x.toNat) % 256) := by
  rw [eaZeroPageX, zext16_eq_ofNat, BitVec.toNat_add]

theorem eaZeroPageY_eq_ofNat : eaZeroPageY b s = BitVec.ofNat 16 ((b.toNat + s.y.toNat) % 256) := by
  rw [eaZeroPageY, zext16_eq_ofNat, BitVec.toNat_add]

theorem ofNat_add_zext16 (n : Nat) : BitVec.ofNat 16 n + zext16 b = BitVec.ofNat 16 ((n + b.toNat) % 65536) := by
  rw [zext16_eq_ofNat, ← BitVec.ofNat_add, ofNat16_eq_iff, Nat.mod_mod]

theorem toNat_relativeTarget : ((relativeTarget b s).toNat : Int) = (s.pc.toNat + b.toInt) % 65536 := by
  rw [relativeTarget, BitVec.toNat_add]
  push_cast
  rw [toNat_sext16]
  exact Int.add_emod_emod _ _ _

/-- A branch writes PC and nothing else, taken or not. -/
theorem branch_eq_setPC (cond : Bool) :
    branch cond b s = s.setPC (if cond then relativeTarget b s else s.pc) := by
  cases cond <;> rfl

end Sys2Proof.Machine

namespace Sys2Proof.Claims

open Sys2Proof.Machine

theorem frame_setPC (s : State) (w : Word) : Frame [.pc] s (s.setPC w) := by
  intro k hk
  cases k with
  | pc => simp at hk
  | mem => exact State.readMem_setPC s w
  | _ => rfl

/-- Settles O20: each step is a load through the address of its mode, which the advance of PC does not change. -/
theorem immediateAndZeroPageModes : Obligations.ImmediateAndZeroPageModes := fun s =>
  ⟨fun h => ⟨_, step_b2 h rfl, rfl, rfl⟩,
    fun h => ⟨_, step_b2 h rfl, rfl, congrArg s.readMem (eaZeroPage_eq_ofNat _)⟩,
    fun h => ⟨_, step_b2 h rfl, rfl, congrArg s.readMem (eaZeroPageX_eq_ofNat s _)⟩,
    fun h => ⟨_, step_b2 h rfl, rfl, congrArg s.readMem (eaZeroPageY_eq_ofNat s _)⟩⟩

/-- Settles O21: each step loads A through the operand word, indexed or not. -/
theorem absoluteModes : Obligations.AbsoluteModes := by
  intro s
  dsimp only
  refine ⟨fun h => ⟨_, step_w3 h rfl, rfl, ?_⟩, fun h => ⟨_, step_w3 h rfl, rfl, ?_⟩,
    fun h => ⟨_, step_w3 h rfl, rfl, ?_⟩⟩
  · rw [← wordOf_eq_ofNat]
    rfl
  · rw [← ofNat_add_zext16, ← wordOf_eq_ofNat]
    rfl
  · rw [← ofNat_add_zext16, ← wordOf_eq_ofNat]
    rfl

/-- Settles O24: BNE branches on Z clear, from PC past the displacement byte. -/
theorem relativeMode : Obligations.RelativeMode := by
  intro s h
  refine ⟨_, step_b2 h rfl, ?_, ?_⟩
  · rw [branch_eq_setPC]
    exact frame_setPC s _
  · rw [branch_pc, State.flag_setPC]
    cases s.flag .z with
    | false => simp [toNat_relativeTarget]
    | true => simp

end Sys2Proof.Claims

/-! The adder in plain arithmetic (`41_arithmetic.md` R130). -/

namespace Sys2Proof.Machine

/-- The mask of R130 selects the sign bit. -/
theorem and_0x80_eq_zero_iff (v : Byte) : v &&& 0x80 = 0 ↔ v.msb = false := by
  rw [show (0x80 : Byte) = BitVec.twoPow 8 7 from rfl, BitVec.and_twoPow, BitVec.msb_eq_getLsbD_last]
  cases v.getLsbD 7 <;> decide

/-- The mask of R130 on an exclusive or compares two sign bits. -/
theorem xor_and_0x80_eq_zero_iff (u v : Byte) : (u ^^^ v) &&& 0x80 = 0 ↔ u.msb = v.msb := by
  rw [and_0x80_eq_zero_iff, BitVec.msb_xor, bne_eq_false_iff_eq]

/-- The complement of a byte in two's complement. -/
theorem toInt_complement (v : Byte) : (~~~v).toInt = -v.toInt - 1 := by
  have := v.isLt
  rw [BitVec.toInt_eq_toNat_cond, BitVec.toInt_eq_toNat_cond, BitVec.toNat_not]
  omega

variable (a m : Byte) (c : Bool)

theorem toNat_addCore_r : (addCore a m c).r.toNat = (a.toNat + m.toNat + c.toNat) % 256 :=
  BitVec.toNat_ofNat _ _

theorem addCore_cout : (addCore a m c).cout = decide (255 < a.toNat + m.toNat + c.toNat) := rfl

/-- The overflow of R130: the operands have one sign and the result has the other. -/
theorem addCore_vout_iff_msb :
    (addCore a m c).vout = true ↔ a.msb ≠ (addCore a m c).r.msb ∧ a.msb = m.msb := by
  rw [ne_eq, ← xor_and_0x80_eq_zero_iff, ← xor_and_0x80_eq_zero_iff]
  simp only [addCore, Bool.and_eq_true, bne_iff_ne, beq_iff_eq, ne_eq]

/-- The overflow of R130 is that of the signed sum. -/
theorem addCore_vout_iff : (addCore a m c).vout = true ↔
    a.toInt + m.toInt + (c.toNat : Int) < -128 ∨ 127 < a.toInt + m.toInt + (c.toNat : Int) := by
  have hc := c.toNat_le
  have ha := a.isLt
  have hm := m.isLt
  rw [addCore_vout_iff_msb]
  simp only [BitVec.msb_eq_decide, BitVec.toInt_eq_toNat_cond, toNat_addCore_r, ne_eq, decide_eq_decide]
  omega

end Sys2Proof.Machine

/-! ADC and SBC (`41_arithmetic.md` R131, R132): SBC is ADC of the complement of its operand. -/

namespace Sys2Proof.Claims

open Sys2Proof.Machine

/-- SetZN sets Z and N as R34 says. -/
theorem znFrom_setZN (s : State) (v : Byte) : ZNFrom v (s.setZN v) := by
  constructor
  · rw [State.flag_setZN, if_neg (by decide), if_pos rfl, beq_eq_decide, decide_eq_decide, ← BitVec.toNat_inj]
    rfl
  · rw [State.flag_setZN, if_pos rfl]
    exact BitVec.msb_eq_decide v

section Operations

variable (src : Source) (s : State)

/-- ADC changes A and its four flags alone. -/
theorem frame_addWithCarry : Frame [.a, .flag .c, .flag .v, .flag .z, .flag .n] s (addWithCarry src s) := by
  intro k hk
  cases k with
  | a => simp at hk
  | mem => exact readMem_addWithCarry s src
  | flag f =>
    obtain ⟨hc, hv, hz, hn⟩ : f ≠ .c ∧ f ≠ .v ∧ f ≠ .z ∧ f ≠ .n := by simpa using hk
    simp only [Part.Kept, flag_addWithCarry, hc, hv, hz, hn, if_false]
  | x | y | sp | pc => rfl

theorem znFrom_addWithCarry : ZNFrom (addWithCarry src s).a (addWithCarry src s) := znFrom_setZN _ _

theorem flag_c_addWithCarry :
    (addWithCarry src s).flag .c = decide (255 < s.a.toNat + (src.read s).toNat + (s.flag .c).toNat) := by
  rw [flag_addWithCarry]
  exact addCore_cout _ _ _

theorem flag_v_addWithCarry : (addWithCarry src s).flag .v = true ↔
    s.a.toInt + (src.read s).toInt + ((s.flag .c).toNat : Int) < -128 ∨
      127 < s.a.toInt + (src.read s).toInt + ((s.flag .c).toNat : Int) := by
  rw [flag_addWithCarry]
  exact addCore_vout_iff _ _ _

/-- R132: the adder is given the complement of the operand. -/
theorem subtractWithBorrow_eq_addWithCarry :
    subtractWithBorrow src s = addWithCarry (.imm (~~~(src.read s))) s := rfl

/-- The complement of M adds 255 - M, and 256 is lost: with the carry, A - M - (1 - C). -/
theorem toNat_subtractWithBorrow_a : ((subtractWithBorrow src s).a.toNat : Int) =
    ((s.a.toNat : Int) - (src.read s).toNat - (1 - (s.flag .c).toNat)) % 256 := by
  rw [subtractWithBorrow_a, toNat_addCore_r, BitVec.toNat_not]
  have := (src.read s).isLt
  omega

/-- The sum with the complement carries out exactly when nothing is borrowed. -/
theorem flag_c_subtractWithBorrow : (subtractWithBorrow src s).flag .c =
    decide ((src.read s).toNat + (1 - (s.flag .c).toNat) ≤ s.a.toNat) := by
  rw [subtractWithBorrow_eq_addWithCarry, flag_c_addWithCarry, decide_eq_decide, Source.read, BitVec.toNat_not]
  have := (src.read s).isLt
  have := (s.flag .c).toNat_le
  omega

/-- The complement is the signed -M - 1. -/
theorem flag_v_subtractWithBorrow : (subtractWithBorrow src s).flag .v = true ↔
    s.a.toInt - (src.read s).toInt - (1 - ((s.flag .c).toNat : Int)) < -128 ∨
      127 < s.a.toInt - (src.read s).toInt - (1 - ((s.flag .c).toNat : Int)) := by
  rw [subtractWithBorrow_eq_addWithCarry, flag_v_addWithCarry, Source.read, toInt_complement]
  omega

end Operations

theorem decode_encode (i : Instr) : decode (encode i) = .ok (i, []) := by
  simpa using decodeOfEncodeGivesTheInstruction i [] (wellFormed_eq_true i)

-- The forms of R131 and R132: each table writes the bytes of its instructions, and every form is the one operation.

section Forms

variable (b : Byte) (w : Word) (s : State)

theorem adcForms_bytes : ∀ f ∈ adcForms b w s, f.bytes = encode f.instr := List.map_inj_left.mp rfl

theorem adcForms_exec : ∀ f ∈ adcForms b w s, exec f.instr s = .next (addWithCarry f.src s) :=
  List.map_inj_left.mp rfl

theorem sbcForms_bytes : ∀ f ∈ sbcForms b w s, f.bytes = encode f.instr := List.map_inj_left.mp rfl

theorem sbcForms_exec : ∀ f ∈ sbcForms b w s, exec f.instr s = .next (subtractWithBorrow f.src s) :=
  List.map_inj_left.mp rfl

end Forms

/-- Settles O26: every form is `addWithCarry` of its operand, and the adder is the exact sum. -/
theorem adcAddsWithCarry : Obligations.AdcAddsWithCarry := by
  intro b w s f hf
  refine ⟨adcForms_bytes b w s f hf ▸ decode_encode f.instr, _, adcForms_exec b w s f hf, ?_⟩
  exact ⟨toNat_addCore_r _ _ _, flag_c_addWithCarry f.src s, flag_v_addWithCarry f.src s,
    znFrom_addWithCarry f.src s, frame_addWithCarry f.src s⟩

/-- Settles O27: every form is `subtractWithBorrow` of its operand, which is ADC of the complement. -/
theorem sbcSubtractsWithBorrow : Obligations.SbcSubtractsWithBorrow := by
  intro b w s f hf
  refine ⟨sbcForms_bytes b w s f hf ▸ decode_encode f.instr, _, sbcForms_exec b w s f hf, ?_⟩
  exact ⟨toNat_subtractWithBorrow_a f.src s, flag_c_subtractWithBorrow f.src s, flag_v_subtractWithBorrow f.src s,
    znFrom_addWithCarry (.imm (~~~(f.src.read s))) s, frame_addWithCarry (.imm (~~~(f.src.read s))) s⟩

end Sys2Proof.Claims


/-! AND, ORA, EOR and BIT (`42_logical.md` R140 to R143): a logical operation on bytes is one on each pair of bits. -/

namespace Sys2Proof.Machine

/-- The test of R143 is true when no bit is set in both bytes. -/
theorem and_eq_zero_iff_getLsbD (u v : Byte) :
    u &&& v = 0 ↔ ∀ k, k < 8 → ¬(u.getLsbD k = true ∧ v.getLsbD k = true) := by
  rw [BitVec.eq_of_getLsbD_eq_iff]
  simp [BitVec.getLsbD_and]

end Sys2Proof.Machine

namespace Sys2Proof.Claims

open Sys2Proof.Machine

section Operations

variable (v : Byte) (src : Source) (s : State)

theorem znFrom_writeAZN : ZNFrom v (writeAZN v s) := znFrom_setZN _ _

/-- A result written to A changes A, Z and N alone. -/
theorem frame_writeAZN : Frame [.a, .flag .z, .flag .n] s (writeAZN v s) := by
  intro k hk
  cases k with
  | a => simp at hk
  | mem => exact readMem_writeAZN s v
  | flag f =>
    obtain ⟨hz, hn⟩ : f ≠ .z ∧ f ≠ .n := by simpa using hk
    simp only [Part.Kept, flag_writeAZN, hz, hn, if_false]
  | x | y | sp | pc => rfl

/-- BIT changes its three flags alone. -/
theorem frame_testBits : Frame [.flag .z, .flag .n, .flag .v] s (testBits src s) := by
  intro k hk
  cases k with
  | mem => exact readMem_testBits s src
  | flag f =>
    obtain ⟨hz, hn, hv⟩ : f ≠ .z ∧ f ≠ .n ∧ f ≠ .v := by simpa using hk
    simp only [Part.Kept, flag_testBits, hz, hn, hv, if_false]
  | a | x | y | sp | pc => rfl

theorem flag_z_testBits : (testBits src s).flag .z = true ↔
    ∀ k, k < 8 → ¬(s.a.getLsbD k = true ∧ (src.read s).getLsbD k = true) := by
  rw [← and_eq_zero_iff_getLsbD, flag_testBits]
  exact beq_iff_eq

theorem flag_n_testBits : (testBits src s).flag .n = (src.read s).getLsbD 7 := by
  rw [flag_testBits]
  rfl

theorem flag_v_testBits : (testBits src s).flag .v = (src.read s).getLsbD 6 := by
  rw [flag_testBits]
  rfl

end Operations

-- The forms of R140 to R143: each table writes the bytes of its instructions, and every form is the one operation.

section Forms

variable (b : Byte) (w : Word) (s : State)

theorem andForms_bytes : ∀ f ∈ andForms b w s, f.bytes = encode f.instr := List.map_inj_left.mp rfl

theorem andForms_exec : ∀ f ∈ andForms b w s, exec f.instr s = .next (andWithA f.src s) :=
  List.map_inj_left.mp rfl

theorem oraForms_bytes : ∀ f ∈ oraForms b w s, f.bytes = encode f.instr := List.map_inj_left.mp rfl

theorem oraForms_exec : ∀ f ∈ oraForms b w s, exec f.instr s = .next (orWithA f.src s) :=
  List.map_inj_left.mp rfl

theorem eorForms_bytes : ∀ f ∈ eorForms b w s, f.bytes = encode f.instr := List.map_inj_left.mp rfl

theorem eorForms_exec : ∀ f ∈ eorForms b w s, exec f.instr s = .next (xorWithA f.src s) :=
  List.map_inj_left.mp rfl

theorem bitForms_bytes : ∀ f ∈ bitForms b w, f.bytes = encode f.instr := List.map_inj_left.mp rfl

theorem bitForms_exec : ∀ f ∈ bitForms b w, exec f.instr s = .next (testBits f.src s) :=
  List.map_inj_left.mp rfl

end Forms

/-- A form that writes to A, with Z and N, a value made of A and the operand by `op` on each bit does what R140 to R142
say, for `op` and, or, exclusive or. -/
theorem decode_and_exec_of_bitwise {f : ReadForm} {s : State} {v : Byte} {op : Bool → Bool → Bool}
    (hbytes : f.bytes = encode f.instr) (hexec : exec f.instr s = .next (writeAZN v s))
    (hbits : ∀ k, v.getLsbD k = op (s.a.getLsbD k) ((f.src.read s).getLsbD k)) :
    decode f.bytes = .ok (f.instr, []) ∧
    ∃ t, exec f.instr s = .next t ∧
      (∀ k, k < 8 → t.a.getLsbD k = op (s.a.getLsbD k) ((f.src.read s).getLsbD k)) ∧
      ZNFrom t.a t ∧ Frame [.a, .flag .z, .flag .n] s t :=
  ⟨hbytes ▸ decode_encode f.instr, _, hexec, fun k _ => hbits k, znFrom_writeAZN v s, frame_writeAZN v s⟩

/-- Settles O29: every form writes the bitwise operation on A and its operand to A. -/
theorem logicalOperationsCombineAWithMemory : Obligations.LogicalOperationsCombineAWithMemory := by
  intro b w s g hg f hf
  obtain rfl | rfl | rfl : g = ((· && ·), andForms b w s) ∨ g = ((· || ·), oraForms b w s) ∨
      g = (xor, eorForms b w s) := by simpa using hg
  · exact decode_and_exec_of_bitwise (andForms_bytes b w s f hf) (andForms_exec b w s f hf)
      fun _ => BitVec.getLsbD_and
  · exact decode_and_exec_of_bitwise (oraForms_bytes b w s f hf) (oraForms_exec b w s f hf)
      fun _ => BitVec.getLsbD_or
  · exact decode_and_exec_of_bitwise (eorForms_bytes b w s f hf) (eorForms_exec b w s f hf)
      fun _ => BitVec.getLsbD_xor

/-- Settles O30: both forms are `testBits` of their operand. -/
theorem bitTestsMemoryAgainstA : Obligations.BitTestsMemoryAgainstA := by
  intro b w s f hf
  refine ⟨bitForms_bytes b w f hf ▸ decode_encode f.instr, _, bitForms_exec b w s f hf, ?_⟩
  exact ⟨flag_z_testBits f.src s, flag_n_testBits f.src s, flag_v_testBits f.src s, frame_testBits f.src s⟩

end Sys2Proof.Claims


/-! The one-bit shifters (`43_shift_rotate.md` R150 to R153): a shift moves the nine bits of the operand and the carry in
by one place and loses none of them, so the result and the carry out follow from the operand by arithmetic. -/

namespace Sys2Proof.Machine

section Shifters

variable (m : Byte) (cin : Bool)

/-- To the left: the carry out above the result is the operand above the carry in. -/
theorem cons_shiftLeftCore :
    BitVec.cons (shiftLeftCore m cin).cout (shiftLeftCore m cin).r = m.concat cin := by
  apply BitVec.eq_of_getLsbD_eq
  intro k hk
  rw [BitVec.getLsbD_cons, BitVec.getLsbD_concat]
  cases cin <;> interval_cases k <;> simp [shiftLeftCore]

/-- To the right: the result above the carry out is the carry in above the operand. -/
theorem concat_shiftRightCore :
    (shiftRightCore m cin).r.concat (shiftRightCore m cin).cout = BitVec.cons cin m := by
  apply BitVec.eq_of_getLsbD_eq
  intro k hk
  rw [BitVec.getLsbD_cons, BitVec.getLsbD_concat]
  cases cin <;> interval_cases k <;> simp [shiftRightCore]

theorem toNat_shiftLeftCore_r : (shiftLeftCore m cin).r.toNat = (2 * m.toNat + cin.toNat) % 256 := by
  have h := congrArg BitVec.toNat (cons_shiftLeftCore m cin)
  rw [BitVec.toNat_cons', BitVec.toNat_concat, Nat.shiftLeft_eq] at h
  omega

theorem shiftLeftCore_cout : (shiftLeftCore m cin).cout = decide (128 ≤ m.toNat) := BitVec.msb_eq_decide m

theorem toNat_shiftRightCore_r : (shiftRightCore m cin).r.toNat = m.toNat / 2 + 128 * cin.toNat := by
  have h := congrArg BitVec.toNat (concat_shiftRightCore m cin)
  rw [BitVec.toNat_cons', BitVec.toNat_concat, Nat.shiftLeft_eq] at h
  have := (shiftRightCore m cin).cout.toNat_lt
  omega

theorem shiftRightCore_cout : (shiftRightCore m cin).cout = decide (m.toNat % 2 = 1) := Nat.testBit_zero m.toNat

end Shifters

variable (pl : Place) (out : ShiftOut) (s : State)

theorem flag_c_writeShifted : (writeShifted pl out s).flag .c = out.cout := by
  rw [flag_writeShifted]
  rfl

theorem flag_writeShifted_of_notMem {f : Flag} (hf : f ∉ [Flag.c, .z, .n]) :
    (writeShifted pl out s).flag f = s.flag f := by
  obtain ⟨hc, hz, hn⟩ : f ≠ .c ∧ f ≠ .z ∧ f ≠ .n := by simpa using hf
  rw [flag_writeShifted, if_neg hn, if_neg hz, if_neg hc]

end Sys2Proof.Machine

namespace Sys2Proof.Claims

open Sys2Proof.Machine

section Operations

variable (pl : Place) (out : ShiftOut) (s : State)

theorem znFrom_writeShifted : ZNFrom out.r (writeShifted pl out s) := znFrom_setZN _ _

/-- A shift changes its place, C, Z and N alone. -/
theorem writesPlace_writeShifted :
    WritesPlace pl out.r [.flag .c, .flag .z, .flag .n] s (writeShifted pl out s) := by
  cases pl with
  | acc =>
    refine ⟨rfl, fun k hk => ?_⟩
    cases k with
    | a => simp at hk
    | mem => exact readMem_writeShifted_acc s out
    | flag f => exact flag_writeShifted_of_notMem .acc out s (by simpa using hk)
    | x | y | sp | pc => rfl
  | mem ea =>
    refine ⟨by rw [readMem_writeShifted_mem, if_pos rfl], storesOnlyAt_writeShifted ea out, fun k hk => ?_⟩
    cases k with
    | mem => simp at hk
    | flag f => exact flag_writeShifted_of_notMem (.mem ea) out s (by simpa using hk)
    | a | x | y | sp | pc => rfl

end Operations

-- The forms of R150 to R153: each table writes the bytes of its instructions, and every form is the one operation.

section Forms

variable (b : Byte) (w : Word) (s : State)

theorem aslForms_bytes : ∀ f ∈ aslForms b w s, f.bytes = encode f.instr := List.map_inj_left.mp rfl

theorem aslForms_exec : ∀ f ∈ aslForms b w s, exec f.instr s = .next (shiftLeft f.place s) :=
  List.map_inj_left.mp rfl

theorem lsrForms_bytes : ∀ f ∈ lsrForms b w s, f.bytes = encode f.instr := List.map_inj_left.mp rfl

theorem lsrForms_exec : ∀ f ∈ lsrForms b w s, exec f.instr s = .next (shiftRight f.place s) :=
  List.map_inj_left.mp rfl

theorem rolForms_bytes : ∀ f ∈ rolForms b w s, f.bytes = encode f.instr := List.map_inj_left.mp rfl

theorem rolForms_exec : ∀ f ∈ rolForms b w s, exec f.instr s = .next (rotateLeft f.place s) :=
  List.map_inj_left.mp rfl

theorem rorForms_bytes : ∀ f ∈ rorForms b w s, f.bytes = encode f.instr := List.map_inj_left.mp rfl

theorem rorForms_exec : ∀ f ∈ rorForms b w s, exec f.instr s = .next (rotateRight f.place s) :=
  List.map_inj_left.mp rfl

end Forms

/-- A form that writes a shifter's output does what R150 to R153 say, for the result `n` and the carry `c` of that
output. -/
theorem decode_and_exec_of_shift {f : RmwForm} {s : State} {out : ShiftOut} {n : Nat} {c : Bool}
    (hbytes : f.bytes = encode f.instr) (hexec : exec f.instr s = .next (writeShifted f.place out s))
    (hr : out.r.toNat = n) (hc : out.cout = c) :
    decode f.bytes = .ok (f.instr, []) ∧
    ∃ t, exec f.instr s = .next t ∧
      ∃ r : Byte, r.toNat = n ∧ t.flag .c = c ∧ ZNFrom r t ∧
        WritesPlace f.place r [.flag .c, .flag .z, .flag .n] s t :=
  ⟨hbytes ▸ decode_encode f.instr, _, hexec, out.r, hr, (flag_c_writeShifted f.place out s).trans hc,
    znFrom_writeShifted f.place out s, writesPlace_writeShifted f.place out s⟩

/-- Settles O31: every form is the shifter to the left with no carry in. -/
theorem aslShiftsLeft : Obligations.AslShiftsLeft := fun b w s f hf =>
  decode_and_exec_of_shift (aslForms_bytes b w s f hf) (aslForms_exec b w s f hf)
    (toNat_shiftLeftCore_r _ false) (shiftLeftCore_cout _ false)

/-- Settles O32: every form is the shifter to the right with no carry in. -/
theorem lsrShiftsRight : Obligations.LsrShiftsRight := fun b w s f hf =>
  decode_and_exec_of_shift (lsrForms_bytes b w s f hf) (lsrForms_exec b w s f hf)
    (toNat_shiftRightCore_r _ false) (shiftRightCore_cout _ false)

/-- Settles O33: every form is the shifter to the left with the previous carry in. -/
theorem rolRotatesLeftThroughCarry : Obligations.RolRotatesLeftThroughCarry := fun b w s f hf =>
  decode_and_exec_of_shift (rolForms_bytes b w s f hf) (rolForms_exec b w s f hf)
    (toNat_shiftLeftCore_r _ (s.flag .c)) (shiftLeftCore_cout _ (s.flag .c))

/-- Settles O34: every form is the shifter to the right with the previous carry in. -/
theorem rorRotatesRightThroughCarry : Obligations.RorRotatesRightThroughCarry := fun b w s f hf =>
  decode_and_exec_of_shift (rorForms_bytes b w s f hf) (rorForms_exec b w s f hf)
    (toNat_shiftRightCore_r _ (s.flag .c)) (shiftRightCore_cout _ (s.flag .c))

end Sys2Proof.Claims

/-! ROL and ROR of A as rotations of nine bits (`43_shift_rotate.md` R152, R153). -/

namespace Sys2Proof.Machine

/-- The nine bits that a rotate of A turns: A, with the carry above it. -/
def State.carryA (s : State) : BitVec 9 := BitVec.cons (s.flag .c) s.a

theorem State.eq_of_carryA_eq {s t : State} (h : t.carryA = s.carryA) : t.flag .c = s.flag .c ∧ t.a = s.a := by
  have hc := congrArg BitVec.msb h
  have ha := congrArg (BitVec.setWidth 8) h
  simp only [State.carryA, BitVec.msb_cons, BitVec.setWidth_cons] at hc ha
  exact ⟨hc, ha⟩

variable (s : State)

/-- ROL puts the carry below A. -/
theorem carryA_rotateLeft : (rotateLeft .acc s).carryA = s.a.concat (s.flag .c) := by
  rw [State.carryA, rotateLeft, flag_c_writeShifted, writeShifted_acc_a, cons_shiftLeftCore]
  rfl

/-- ROR takes the carry from below A. -/
theorem carryA_eq_concat_rotateRight :
    s.carryA = (rotateRight .acc s).a.concat ((rotateRight .acc s).flag .c) := by
  rw [rotateRight, flag_c_writeShifted, writeShifted_acc_a, concat_shiftRightCore]
  rfl

end Sys2Proof.Machine

namespace Sys2Proof.Claims

open Sys2Proof.Machine

theorem Frame.trans {changed : List Part} {s t u : State} (hst : Frame changed s t) (htu : Frame changed t u) :
    Frame changed s u := by
  intro k hk
  have h1 := hst k hk
  have h2 := htu k hk
  cases k with
  | mem => exact fun addr => (h2 addr).trans (h1 addr)
  | _ => exact h2.trans h1

/-- `t` is `s` with the nine bits of A and C turned to the right by `d` places, and Z and N as they may be. -/
def RotatesBy (d : Nat) (s t : State) : Prop :=
  (∀ k < 9, t.carryA.getLsbD k = s.carryA.getLsbD ((k + d) % 9)) ∧ Frame [.a, .flag .c, .flag .z, .flag .n] s t

theorem RotatesBy.trans {d e : Nat} {s t u : State} (hst : RotatesBy d s t) (htu : RotatesBy e t u) :
    RotatesBy (e + d) s u := by
  obtain ⟨hbits, hframe⟩ := hst
  obtain ⟨hbits', hframe'⟩ := htu
  refine ⟨fun k hk => ?_, hframe.trans hframe'⟩
  rw [hbits' k hk, hbits _ (Nat.mod_lt _ (by decide)), Nat.mod_add_mod, Nat.add_assoc]

/-- One place to the left is eight to the right. -/
theorem rotatesBy_rotateLeft (s : State) : RotatesBy 8 s (rotateLeft .acc s) := by
  obtain ⟨-, hframe⟩ := writesPlace_writeShifted .acc (shiftLeftCore s.a (s.flag .c)) s
  refine ⟨fun k hk => ?_, hframe⟩
  rw [carryA_rotateLeft, State.carryA, BitVec.getLsbD_concat, BitVec.getLsbD_cons]
  by_cases h : k = 0
  · simp [h]
  · have hmod : (k + 8) % 9 = k - 1 := by omega
    rw [if_neg h, hmod, if_neg (by omega)]

theorem rotatesBy_rotateRight (s : State) : RotatesBy 1 s (rotateRight .acc s) := by
  obtain ⟨-, hframe⟩ := writesPlace_writeShifted .acc (shiftRightCore s.a (s.flag .c)) s
  refine ⟨fun k hk => ?_, hframe⟩
  rw [carryA_eq_concat_rotateRight s, State.carryA, BitVec.getLsbD_concat, BitVec.getLsbD_cons]
  by_cases h : k = 8
  · simp [h]
  · have hmod : (k + 1) % 9 = k + 1 := by omega
    rw [if_neg h, hmod, if_neg (by omega), Nat.add_sub_cancel]

theorem execTimes_succ {i : Instr} {s t : State} (h : exec i s = .next t) (n : Nat) :
    execTimes (n + 1) i s = execTimes n i t := by
  rw [execTimes, h]

/-- An instruction that turns the nine bits by `d` places turns them by `n * d` when run `n` times over. -/
theorem execTimes_rotatesBy {i : Instr} {d : Nat} (hexec : ∀ s, ∃ t, exec i s = .next t ∧ RotatesBy d s t) (n : Nat)
    (s : State) : ∃ t, execTimes n i s = .next t ∧ RotatesBy (n * d) s t := by
  induction n generalizing s with
  | zero =>
    refine ⟨s, rfl, fun k hk => ?_, frame_refl _ s⟩
    rw [Nat.zero_mul, Nat.add_zero, Nat.mod_eq_of_lt hk]
  | succ n ih =>
    obtain ⟨t, ht, hst⟩ := hexec s
    obtain ⟨u, hu, htu⟩ := ih t
    exact ⟨u, (execTimes_succ ht n).trans hu, Nat.succ_mul n d ▸ hst.trans htu⟩

/-- Nine bits turned by a multiple of nine places are back where they were. -/
theorem RotatesBy.restores {d : Nat} {s t : State} (h : RotatesBy (9 * d) s t) :
    t.a = s.a ∧ t.flag .c = s.flag .c ∧ Frame [.flag .z, .flag .n] s t := by
  obtain ⟨hbits, hframe⟩ := h
  have hcarryA : t.carryA = s.carryA := by
    refine BitVec.eq_of_getLsbD_eq fun k hk => ?_
    rw [hbits k hk, Nat.add_mul_mod_self_left, Nat.mod_eq_of_lt hk]
  obtain ⟨hc, ha⟩ := State.eq_of_carryA_eq hcarryA
  refine ⟨ha, hc, fun k hk => ?_⟩
  by_cases hac : k = .a ∨ k = .flag .c
  · obtain rfl | rfl := hac
    · exact ha
    · exact hc
  · exact hframe k (by simp_all)

/-- Settles O35: ROL A and ROR A each turn the nine bits by one place, so nine of either turn them all the way. -/
theorem nineRotationsRestoreAAndCarry : Obligations.NineRotationsRestoreAAndCarry := by
  intro s i hi
  obtain ⟨d, hexec⟩ : ∃ d, ∀ s, ∃ t, exec i s = .next t ∧ RotatesBy d s t := by
    obtain rfl | rfl : i = .rolAcc ∨ i = .rorAcc := by simpa using hi
    · exact ⟨8, fun s => ⟨_, rfl, rotatesBy_rotateLeft s⟩⟩
    · exact ⟨1, fun s => ⟨_, rfl, rotatesBy_rotateRight s⟩⟩
  obtain ⟨t, ht, hrot⟩ := execTimes_rotatesBy hexec 9 s
  exact ⟨t, ht, hrot.restores⟩

end Sys2Proof.Claims


/-! CMP, CPX and CPY (`44_compare.md` R160 to R163): the flags of the 8-bit difference, with no borrow in. -/

namespace Sys2Proof.Claims

open Sys2Proof.Machine

section Comparator

variable (reg m : Byte) (s : State)

theorem flag_c_compare : (Machine.compare reg m s).flag .c = decide (m.toNat ≤ reg.toNat) := by
  rw [flag_compare]
  rfl

/-- R160 takes Z and N from the 8-bit difference. -/
theorem znFrom_compare : ZNFrom (reg - m) (Machine.compare reg m s) := znFrom_setZN _ _

/-- The 8-bit difference is 0 only for equal bytes. -/
theorem flag_z_compare : (Machine.compare reg m s).flag .z = decide (reg = m) := by
  obtain ⟨hz, -⟩ := znFrom_compare reg m s
  rw [hz, decide_eq_decide, ← sub_eq_zero (a := reg), ← BitVec.toNat_inj]
  rfl

theorem flag_n_compare : (Machine.compare reg m s).flag .n =
    decide ((128 : Int) ≤ ((reg.toNat : Int) - m.toNat) % 256) := by
  obtain ⟨-, hn⟩ := znFrom_compare reg m s
  rw [hn, decide_eq_decide, BitVec.toNat_sub]
  have := m.isLt
  omega

/-- The comparator changes its three flags alone. -/
theorem frame_compare : Frame [.flag .c, .flag .z, .flag .n] s (Machine.compare reg m s) := by
  intro k hk
  cases k with
  | mem => exact readMem_compare s reg m
  | flag f =>
    obtain ⟨hc, hz, hn⟩ : f ≠ .c ∧ f ≠ .z ∧ f ≠ .n := by simpa using hk
    simp only [Part.Kept, flag_compare, hc, hz, hn, if_false]
  | a | x | y | sp | pc => rfl

end Comparator

-- The forms of R161 to R163: each table writes the bytes of its instructions, and every form is the one comparator.

section Forms

variable (b : Byte) (w : Word) (s : State)

theorem cmpForms_bytes : ∀ f ∈ cmpForms b w s, f.bytes = encode f.instr := List.map_inj_left.mp rfl

theorem cmpForms_exec : ∀ f ∈ cmpForms b w s, exec f.instr s = .next (Machine.compare s.a (f.src.read s) s) :=
  List.map_inj_left.mp rfl

theorem cpxForms_bytes : ∀ f ∈ cpxForms b w, f.bytes = encode f.instr := List.map_inj_left.mp rfl

theorem cpxForms_exec : ∀ f ∈ cpxForms b w, exec f.instr s = .next (Machine.compare s.x (f.src.read s) s) :=
  List.map_inj_left.mp rfl

theorem cpyForms_bytes : ∀ f ∈ cpyForms b w, f.bytes = encode f.instr := List.map_inj_left.mp rfl

theorem cpyForms_exec : ∀ f ∈ cpyForms b w, exec f.instr s = .next (Machine.compare s.y (f.src.read s) s) :=
  List.map_inj_left.mp rfl

end Forms

/-- A form that compares its operand with the byte `reg` does what R160 says. -/
theorem decode_and_exec_of_compare {f : ReadForm} {s : State} {reg : Byte}
    (hbytes : f.bytes = encode f.instr) (hexec : exec f.instr s = .next (Machine.compare reg (f.src.read s) s)) :
    decode f.bytes = .ok (f.instr, []) ∧
    ∃ t, exec f.instr s = .next t ∧
      t.flag .c = decide ((f.src.read s).toNat ≤ reg.toNat) ∧
      t.flag .z = decide (reg = f.src.read s) ∧
      t.flag .n = decide ((128 : Int) ≤ ((reg.toNat : Int) - (f.src.read s).toNat) % 256) ∧
      Frame [.flag .c, .flag .z, .flag .n] s t :=
  ⟨hbytes ▸ decode_encode f.instr, _, hexec, flag_c_compare reg _ s, flag_z_compare reg _ s,
    flag_n_compare reg _ s, frame_compare reg _ s⟩

/-- Settles O36: every form is the comparator of its register and its operand. -/
theorem compareSetsCarryZeroNegative : Obligations.CompareSetsCarryZeroNegative := by
  intro b w s g hg f hf
  obtain rfl | rfl | rfl : g = (s.a, cmpForms b w s) ∨ g = (s.x, cpxForms b w) ∨ g = (s.y, cpyForms b w) := by
    simpa using hg
  · exact decode_and_exec_of_compare (cmpForms_bytes b w s f hf) (cmpForms_exec b w s f hf)
  · exact decode_and_exec_of_compare (cpxForms_bytes b w f hf) (cpxForms_exec b w s f hf)
  · exact decode_and_exec_of_compare (cpyForms_bytes b w f hf) (cpyForms_exec b w s f hf)

end Sys2Proof.Claims


/-! INC, DEC and the increments and decrements of X and Y (`45_incdec.md` R170 to R176): each writes one byte and sets
Z and N from it. -/

namespace Sys2Proof.Machine

-- The arithmetic of R170 to R175 on a byte: subtracting 1 is adding 255 mod 256.

theorem toNat_add_one (v : Byte) : (v + 1).toNat = (v.toNat + 1) % 256 := BitVec.toNat_add v 1

theorem toNat_sub_one (v : Byte) : (v - 1).toNat = (v.toNat + 255) % 256 := by
  rw [BitVec.toNat_sub, Nat.add_comm]
  rfl

section

variable (ea : Word) (v : Byte) (s : State)

/-- What INC and DEC have in common: a byte of memory is stored, and Z and N are those of it. -/
def writeMemZN : State := (s.writeMem ea v).setZN v

theorem exec_incAbs (w : Word) : exec (.incAbs w) s = .next (writeMemZN w (s.readMem w + 1) s) := rfl

theorem exec_decAbs (w : Word) : exec (.decAbs w) s = .next (writeMemZN w (s.readMem w - 1) s) := rfl

theorem readMem_writeMemZN (addr : Word) :
    (writeMemZN ea v s).readMem addr = if addr = ea then v else s.readMem addr := by
  rw [writeMemZN, State.readMem_setZN, State.readMem_writeMem]

end

end Sys2Proof.Machine

namespace Sys2Proof.Claims

open Sys2Proof.Machine

theorem frame_setX (s : State) (v : Byte) : Frame [.x] s (s.setX v) := by
  intro k hk
  cases k with
  | x => simp at hk
  | mem => exact State.readMem_setX s v
  | _ => rfl

theorem frame_setY (s : State) (v : Byte) : Frame [.y] s (s.setY v) := by
  intro k hk
  cases k with
  | y => simp at hk
  | mem => exact State.readMem_setY s v
  | _ => rfl

/-- SetZN (`10_state.md` R34) adds Z and N to what has changed. -/
theorem Frame.setZN {k : Part} {s t : State} (h : Frame [k] s t) (v : Byte) :
    Frame [k, .flag .z, .flag .n] s (t.setZN v) := by
  intro j hj
  obtain ⟨hk, hz, hn⟩ : j ≠ k ∧ j ≠ .flag .z ∧ j ≠ .flag .n := by simpa using hj
  have hkept : j.Kept s t := h j (by simpa using hk)
  cases j with
  | flag f =>
    rw [Part.Kept, State.flag_setZN, if_neg (by simpa using hn), if_neg (by simpa using hz)]
    exact hkept
  | _ => exact hkept

/-- Two changes of a part that leave it as it was: only the rest of the list may differ. -/
theorem Frame.restore {k : Part} {changed : List Part} {s t u : State} (hst : Frame (k :: changed) s t)
    (htu : Frame (k :: changed) t u) (hk : k.Kept s u) : Frame changed s u := by
  intro j hj
  by_cases hjk : j = k
  · exact hjk ▸ hk
  · exact hst.trans htu j (by simp [hjk, hj])

section Operations

variable (ea : Word) (v : Byte) (s : State)

theorem znFrom_writeMemZN : ZNFrom v (writeMemZN ea v s) := znFrom_setZN _ _

theorem frame_writeMemZN : Frame [.mem, .flag .z, .flag .n] s (writeMemZN ea v s) := (frame_writeMem s ea v).setZN v

theorem storesOnlyAt_writeMemZN : StoresOnlyAt [ea] s (writeMemZN ea v s) := storesOnlyAt_writeMem ea v

theorem znFrom_writeXZN : ZNFrom v (writeXZN v s) := znFrom_setZN _ _

theorem frame_writeXZN : Frame [.x, .flag .z, .flag .n] s (writeXZN v s) := (frame_setX s v).setZN v

theorem znFrom_writeYZN : ZNFrom v (writeYZN v s) := znFrom_setZN _ _

theorem frame_writeYZN : Frame [.y, .flag .z, .flag .n] s (writeYZN v s) := (frame_setY s v).setZN v

end Operations

-- The forms of R170 and R171: each table writes the bytes of its instructions, and every form is the one operation.

section Forms

variable (b : Byte) (w : Word) (s : State)

theorem incForms_bytes : ∀ f ∈ incForms b w s, f.bytes = encode f.instr := List.map_inj_left.mp rfl

theorem incForms_exec : ∀ f ∈ incForms b w s, exec f.instr s = .next (writeMemZN f.ea (s.readMem f.ea + 1) s) :=
  List.map_inj_left.mp rfl

theorem decForms_bytes : ∀ f ∈ decForms b w s, f.bytes = encode f.instr := List.map_inj_left.mp rfl

theorem decForms_exec : ∀ f ∈ decForms b w s, exec f.instr s = .next (writeMemZN f.ea (s.readMem f.ea - 1) s) :=
  List.map_inj_left.mp rfl

end Forms

/-- A form that stores the byte at its effective address plus `n` mod 256, with Z and N, does what R170 and R171 say,
for `n` 1 and 255. -/
theorem decode_and_exec_of_writeMemZN {f : StoreForm} {s : State} {v : Byte} {n : Nat}
    (hbytes : f.bytes = encode f.instr) (hexec : exec f.instr s = .next (writeMemZN f.ea v s))
    (hv : v.toNat = ((s.readMem f.ea).toNat + n) % 256) :
    decode f.bytes = .ok (f.instr, []) ∧
    ∃ t, exec f.instr s = .next t ∧
      (t.readMem f.ea).toNat = ((s.readMem f.ea).toNat + n) % 256 ∧
      ZNFrom (t.readMem f.ea) t ∧ StoresOnlyAt [f.ea] s t ∧ Frame [.mem, .flag .z, .flag .n] s t := by
  have hread : (writeMemZN f.ea v s).readMem f.ea = v := by rw [readMem_writeMemZN, if_pos rfl]
  refine ⟨hbytes ▸ decode_encode f.instr, _, hexec, ?_⟩
  rw [hread]
  exact ⟨hv, znFrom_writeMemZN f.ea v s, storesOnlyAt_writeMemZN f.ea v s, frame_writeMemZN f.ea v s⟩

/-- Settles O37: every form stores the byte at its effective address plus or minus 1. -/
theorem incAndDecChangeAMemoryByteByOne : Obligations.IncAndDecChangeAMemoryByteByOne := by
  intro b w s g hg f hf
  obtain rfl | rfl : g = (1, incForms b w s) ∨ g = (255, decForms b w s) := by simpa using hg
  · exact decode_and_exec_of_writeMemZN (incForms_bytes b w s f hf) (incForms_exec b w s f hf) (toNat_add_one _)
  · exact decode_and_exec_of_writeMemZN (decForms_bytes b w s f hf) (decForms_exec b w s f hf) (toNat_sub_one _)

/-- Settles O38: each instruction writes its register plus or minus 1 to it, with Z and N. -/
theorem incrementAndDecrementOfIndexRegisters : Obligations.IncrementAndDecrementOfIndexRegisters := fun s =>
  ⟨⟨decode_encode .inx, _, rfl, toNat_add_one s.x, znFrom_writeXZN _ s, frame_writeXZN _ s⟩,
    ⟨decode_encode .iny, _, rfl, toNat_add_one s.y, znFrom_writeYZN _ s, frame_writeYZN _ s⟩,
    ⟨decode_encode .dex, _, rfl, toNat_sub_one s.x, znFrom_writeXZN _ s, frame_writeXZN _ s⟩,
    ⟨decode_encode .dey, _, rfl, toNat_sub_one s.y, znFrom_writeYZN _ s, frame_writeYZN _ s⟩⟩

section WritingBack

variable {v r : Byte} {s : State}

/-- A second write that puts the first value back restores all but Z and N, which are those of that value: for a byte of
memory, for X and for Y. -/
theorem writeMemZN_back {ea : Word} (hr : r = s.readMem ea) :
    ZNFrom (s.readMem ea) (writeMemZN ea r (writeMemZN ea v s)) ∧
      Frame [.flag .z, .flag .n] s (writeMemZN ea r (writeMemZN ea v s)) := by
  subst hr
  refine ⟨znFrom_writeMemZN ea _ _, (frame_writeMemZN ea v s).restore (frame_writeMemZN ea _ _) fun addr => ?_⟩
  rw [readMem_writeMemZN, readMem_writeMemZN]
  by_cases haddr : addr = ea
  · rw [if_pos haddr, haddr]
  · rw [if_neg haddr, if_neg haddr]

theorem writeXZN_back (hr : r = s.x) :
    ZNFrom s.x (writeXZN r (writeXZN v s)) ∧ Frame [.flag .z, .flag .n] s (writeXZN r (writeXZN v s)) :=
  ⟨hr ▸ znFrom_writeXZN r _, (frame_writeXZN v s).restore (frame_writeXZN r _) hr⟩

theorem writeYZN_back (hr : r = s.y) :
    ZNFrom s.y (writeYZN r (writeYZN v s)) ∧ Frame [.flag .z, .flag .n] s (writeYZN r (writeYZN v s)) :=
  ⟨hr ▸ znFrom_writeYZN r _, (frame_writeYZN v s).restore (frame_writeYZN r _) hr⟩

end WritingBack

/-- Settles O39: adding 1 and subtracting 1 cancel, so the second instruction writes the first value back. -/
theorem incrementThenDecrementRestores : Obligations.IncrementThenDecrementRestores := by
  intro w s
  refine ⟨fun ij h => ?_, fun ij h => ?_, fun ij h => ?_⟩
  · obtain rfl | rfl : ij = (.incAbs w, .decAbs w) ∨ ij = (.decAbs w, .incAbs w) := by simpa using h
    · refine ⟨_, _, exec_incAbs s w, exec_decAbs _ w, writeMemZN_back ?_⟩
      rw [readMem_writeMemZN, if_pos rfl, BitVec.add_sub_cancel]
    · refine ⟨_, _, exec_decAbs s w, exec_incAbs _ w, writeMemZN_back ?_⟩
      rw [readMem_writeMemZN, if_pos rfl, BitVec.sub_add_cancel]
  · obtain rfl | rfl : ij = (.inx, .dex) ∨ ij = (.dex, .inx) := by simpa using h
    · exact ⟨_, _, rfl, rfl, writeXZN_back (BitVec.add_sub_cancel _ _)⟩
    · exact ⟨_, _, rfl, rfl, writeXZN_back (BitVec.sub_add_cancel _ _)⟩
  · obtain rfl | rfl : ij = (.iny, .dey) ∨ ij = (.dey, .iny) := by simpa using h
    · exact ⟨_, _, rfl, rfl, writeYZN_back (BitVec.add_sub_cancel _ _)⟩
    · exact ⟨_, _, rfl, rfl, writeYZN_back (BitVec.sub_add_cancel _ _)⟩

end Sys2Proof.Claims


/-! Loads, stores and transfers (`46_load_store_transfer.md` R180 to R187): each moves one byte unchanged; loads and
transfers set Z and N from it, stores set no flag. -/

namespace Sys2Proof.Claims

open Sys2Proof.Machine

-- The forms of R180 to R185: each table writes the bytes of its instructions, and every form moves one byte.

section Forms

variable (b : Byte) (w : Word) (s : State)

theorem ldaForms_bytes : ∀ f ∈ ldaForms b w s, f.bytes = encode f.instr := List.map_inj_left.mp rfl

theorem ldaForms_exec : ∀ f ∈ ldaForms b w s, exec f.instr s = .next (writeAZN (f.src.read s) s) :=
  List.map_inj_left.mp rfl

theorem ldxForms_bytes : ∀ f ∈ ldxForms b w s, f.bytes = encode f.instr := List.map_inj_left.mp rfl

theorem ldxForms_exec : ∀ f ∈ ldxForms b w s, exec f.instr s = .next (writeXZN (f.src.read s) s) :=
  List.map_inj_left.mp rfl

theorem ldyForms_bytes : ∀ f ∈ ldyForms b w s, f.bytes = encode f.instr := List.map_inj_left.mp rfl

theorem ldyForms_exec : ∀ f ∈ ldyForms b w s, exec f.instr s = .next (writeYZN (f.src.read s) s) :=
  List.map_inj_left.mp rfl

theorem staForms_bytes : ∀ f ∈ staForms b w s, f.bytes = encode f.instr := List.map_inj_left.mp rfl

theorem staForms_exec : ∀ f ∈ staForms b w s, exec f.instr s = .next (s.writeMem f.ea s.a) :=
  List.map_inj_left.mp rfl

theorem stxForms_bytes : ∀ f ∈ stxForms b w s, f.bytes = encode f.instr := List.map_inj_left.mp rfl

theorem stxForms_exec : ∀ f ∈ stxForms b w s, exec f.instr s = .next (s.writeMem f.ea s.x) :=
  List.map_inj_left.mp rfl

theorem styForms_bytes : ∀ f ∈ styForms b w s, f.bytes = encode f.instr := List.map_inj_left.mp rfl

theorem styForms_exec : ∀ f ∈ styForms b w s, exec f.instr s = .next (s.writeMem f.ea s.y) :=
  List.map_inj_left.mp rfl

end Forms

/-- Settles O40: every form writes its operand to its register, with Z and N. -/
theorem loadsMoveTheOperandToTheRegister : Obligations.LoadsMoveTheOperandToTheRegister := by
  intro b w s
  refine ⟨fun f hf => ?_, fun f hf => ?_, fun f hf => ?_⟩
  · exact ⟨ldaForms_bytes b w s f hf ▸ decode_encode f.instr, _, ldaForms_exec b w s f hf,
      writeAZN_a s _, znFrom_writeAZN _ s, frame_writeAZN _ s⟩
  · exact ⟨ldxForms_bytes b w s f hf ▸ decode_encode f.instr, _, ldxForms_exec b w s f hf,
      writeXZN_x s _, znFrom_writeXZN _ s, frame_writeXZN _ s⟩
  · exact ⟨ldyForms_bytes b w s f hf ▸ decode_encode f.instr, _, ldyForms_exec b w s f hf,
      writeYZN_y s _, znFrom_writeYZN _ s, frame_writeYZN _ s⟩

/-- A form that stores the byte `reg` at its effective address does what R183 to R185 say. -/
theorem decode_and_exec_of_store {f : StoreForm} {s : State} {reg : Byte}
    (hbytes : f.bytes = encode f.instr) (hexec : exec f.instr s = .next (s.writeMem f.ea reg)) :
    decode f.bytes = .ok (f.instr, []) ∧
    ∃ t, exec f.instr s = .next t ∧ t.readMem f.ea = reg ∧ StoresOnlyAt [f.ea] s t ∧ Frame [.mem] s t :=
  ⟨hbytes ▸ decode_encode f.instr, _, hexec, State.readMem_writeMem_same s f.ea reg,
    storesOnlyAt_writeMem f.ea reg, frame_writeMem s f.ea reg⟩

/-- Settles O41: every form stores its register at its effective address. -/
theorem storesMoveTheRegisterToMemory : Obligations.StoresMoveTheRegisterToMemory := by
  intro b w s g hg f hf
  obtain rfl | rfl | rfl : g = (s.a, staForms b w s) ∨ g = (s.x, stxForms b w s) ∨ g = (s.y, styForms b w s) := by
    simpa using hg
  · exact decode_and_exec_of_store (staForms_bytes b w s f hf) (staForms_exec b w s f hf)
  · exact decode_and_exec_of_store (stxForms_bytes b w s f hf) (stxForms_exec b w s f hf)
  · exact decode_and_exec_of_store (styForms_bytes b w s f hf) (styForms_exec b w s f hf)

/-- Settles O42: each transfer writes A to its register, with Z and N. -/
theorem taxAndTayCopyA : Obligations.TaxAndTayCopyA := fun s =>
  ⟨⟨decode_encode .tax, _, rfl, writeXZN_x s s.a, znFrom_writeXZN s.a s, frame_writeXZN s.a s⟩,
    ⟨decode_encode .tay, _, rfl, writeYZN_y s s.a, znFrom_writeYZN s.a s, frame_writeYZN s.a s⟩⟩

end Sys2Proof.Claims

/-! Branches, jumps and subroutine linkage (`47_control_transfer.md` R200 to R212): none writes a flag, and only JSR
stores, the two bytes of its return address. -/

namespace Sys2Proof.Machine

section

variable (w : Word)

-- The masks of R210 in plain arithmetic: the offset in a page, and the start of the page.

theorem toNat_and_0x00FF : (w &&& 0x00FF).toNat = w.toNat % 256 :=
  Nat.and_two_pow_sub_one_eq_mod w.toNat 8

theorem toNat_and_0xFF00 : (w &&& 0xFF00).toNat = w.toNat / 256 * 256 := by
  have hshift : w &&& (0xFF00 : Word) = w >>> 8 <<< 8 := by
    rw [BitVec.shiftLeft_ushiftRight]
    rfl
  have := w.isLt
  rw [hshift, BitVec.toNat_shiftLeft, BitVec.toNat_ushiftRight, Nat.shiftRight_eq_div_pow, Nat.shiftLeft_eq]
  omega

/-- The two masks share no bit, so a page and an offset are put together by addition. -/
theorem toNat_page_or_offset (v : Word) :
    (w &&& 0xFF00 ||| v &&& 0x00FF).toNat = w.toNat / 256 * 256 + v.toNat % 256 := by
  have hdisjoint : (w &&& 0xFF00) &&& (v &&& 0x00FF) = 0#16 :=
    calc (w &&& 0xFF00) &&& (v &&& 0x00FF)
      _ = (w &&& v) &&& (0xFF00 &&& 0x00FF) := by ac_rfl
      _ = 0#16 := BitVec.and_zero
  have := w.isLt
  rw [← BitVec.add_eq_or_of_and_eq_zero _ _ hdisjoint, BitVec.toNat_add, toNat_and_0xFF00, toNat_and_0x00FF]
  omega

/-- The next address within the page of a pointer: R210 takes the high byte of the target of JMP there. -/
def nextInPage : Word :=
  BitVec.ofNat 16 (if w.toNat % 256 = 255 then w.toNat / 256 * 256 else w.toNat + 1)

/-- The two formulas of R210 name the same address. -/
theorem nextInPage_eq_page_or_offset : nextInPage w = w &&& 0xFF00 ||| (w + 1) &&& 0x00FF := by
  apply BitVec.eq_of_toNat_eq
  have hsucc : (w + 1).toNat = (w.toNat + 1) % 65536 := BitVec.toNat_add w 1
  have := w.isLt
  rw [toNat_page_or_offset, hsucc, nextInPage, BitVec.toNat_ofNat]
  split <;> omega

theorem indirectTarget_eq_readWord (s : State) : indirectTarget w s = s.readWord w (nextInPage w) := by
  have hend : w &&& 0x00FF = 0x00FF ↔ w.toNat % 256 = 255 := by
    rw [← BitVec.toNat_inj, toNat_and_0x00FF]
    rfl
  simp only [indirectTarget, nextInPage, hend]
  split
  · rw [← toNat_and_0xFF00, BitVec.ofNat_toNat, BitVec.setWidth_eq]
  · rw [BitVec.ofNat_add, BitVec.ofNat_toNat, BitVec.setWidth_eq]
    rfl

end

section

variable (s : State) (w : Word)

/-- R200 in plain arithmetic: the displacement is signed, and a branch not taken adds nothing. -/
theorem toNat_branch_pc (cond : Bool) (b : Byte) :
    ((branch cond b s).pc.toNat : Int) = (s.pc.toNat + if cond then b.toInt else 0) % 65536 := by
  have := s.pc.isLt
  rw [branch_pc]
  cases cond with
  | true => exact toNat_relativeTarget s b
  | false =>
    simp only [Bool.false_eq_true, if_false, add_zero]
    omega

theorem readMem_jumpToSubroutine_high : (jumpToSubroutine w s).readMem (stackAddr s.sp) = hiByte (s.pc - 1) := by
  have hsp : s.sp ≠ s.sp - 1 := by bv_omega
  rw [readMem_jumpToSubroutine, if_neg (mt stackAddr_inj.1 hsp), if_pos rfl]

theorem readMem_jumpToSubroutine_low :
    (jumpToSubroutine w s).readMem (stackAddr (s.sp - 1)) = loByte (s.pc - 1) := by
  rw [readMem_jumpToSubroutine, if_pos rfl]

/-- RTS pulls what JSR pushed, low byte first. -/
theorem returnFromSubroutine_jumpToSubroutine_pc :
    (returnFromSubroutine (jumpToSubroutine w s)).pc = s.pc := by
  rw [returnFromSubroutine_pc, jumpToSubroutine_sp, BitVec.sub_add_cancel, BitVec.sub_add_cancel,
    readMem_jumpToSubroutine_high, readMem_jumpToSubroutine_low, wordOf_hiByte_loByte, BitVec.sub_add_cancel]

theorem returnFromSubroutine_jumpToSubroutine_sp :
    (returnFromSubroutine (jumpToSubroutine w s)).sp = s.sp := by
  rw [returnFromSubroutine_sp, jumpToSubroutine_sp, BitVec.sub_add_cancel, BitVec.sub_add_cancel]

end

end Sys2Proof.Machine

namespace Sys2Proof.Claims

open Sys2Proof.Machine

theorem Frame.mono {changed changed' : List Part} {s t : State} (h : Frame changed s t)
    (hsub : changed ⊆ changed') : Frame changed' s t :=
  fun k hk => h k fun hmem => hk (hsub hmem)

/-- A frame from any PC is one from the state itself, where PC may change. -/
theorem Frame.of_setPC {changed : List Part} {s t : State} {w : Word} (h : Frame changed (s.setPC w) t)
    (hpc : .pc ∈ changed) : Frame changed s t :=
  ((frame_setPC s w).mono (by simpa using hpc)).trans h

section Operations

variable (s : State) (w : Word)

theorem frame_branch (cond : Bool) (b : Byte) : Frame [.pc] s (branch cond b s) :=
  branch_eq_setPC s b cond ▸ frame_setPC s _

theorem frame_jumpToSubroutine : Frame [.pc, .sp, .mem] s (jumpToSubroutine w s) :=
  (((frame_push s _).trans (frame_push _ _)).mono (by simp)).trans ((frame_setPC _ w).mono (by simp))

theorem frame_returnFromSubroutine : Frame [.pc, .sp] s (returnFromSubroutine s) :=
  (((frame_pull s).trans (frame_pull _)).mono (by simp)).trans ((frame_setPC _ _).mono (by simp))

/-- JSR then RTS: SP is back, so only PC and memory may differ. -/
theorem frame_returnFromSubroutine_jumpToSubroutine :
    Frame [.pc, .mem] s (returnFromSubroutine (jumpToSubroutine w s)) :=
  Frame.restore (k := .sp) ((frame_jumpToSubroutine s w).mono (by simp))
    ((frame_returnFromSubroutine _).mono (by simp)) (returnFromSubroutine_jumpToSubroutine_sp s w)

theorem storesOnlyAt_returnFromSubroutine_jumpToSubroutine :
    StoresOnlyAt [stackAddr s.sp, stackAddr (s.sp - 1)] s (returnFromSubroutine (jumpToSubroutine w s)) :=
  fun addr haddr => (readMem_returnFromSubroutine _ addr).trans (storesOnlyAt_jumpToSubroutine w addr haddr)

-- The table of R200 writes the bytes of its instructions, and every form is the one operation.

theorem branchForms_bytes (b : Byte) : ∀ f ∈ branchForms b s, f.bytes = encode f.instr := List.map_inj_left.mp rfl

theorem branchForms_exec (b : Byte) :
    ∀ f ∈ branchForms b s, exec f.instr (s.setPC w) = .next (branch f.cond b (s.setPC w)) :=
  List.map_inj_left.mp rfl

end Operations

/-- Settles O44: every form is `branch` on its condition, from PC past the displacement byte. -/
theorem branchesTestOneFlag : Obligations.BranchesTestOneFlag := by
  intro addr b s f hf
  refine ⟨branchForms_bytes s b f hf ▸ decode_encode f.instr, _, branchForms_exec s (addr + 2) b f hf, ?_,
    (frame_branch _ f.cond b).of_setPC (by simp)⟩
  have hpc : ((s.setPC (addr + 2)).pc.toNat : Int) = (addr.toNat + 2) % 65536 := by
    exact_mod_cast BitVec.toNat_add addr 2
  rw [toNat_branch_pc, hpc, Int.emod_add_emod]

/-- Settles O45: JMP indirect reads its target at the pointer and at the next address within the pointer's page. -/
theorem jumpsSetPc : Obligations.JumpsSetPc := by
  intro w s
  refine ⟨⟨decode_encode (.jmpAbs w), _, rfl, rfl, frame_setPC s w⟩,
    ⟨decode_encode (.jmpInd w), _, rfl, ?_, frame_setPC s _⟩, nextInPage_eq_page_or_offset w⟩
  rw [State.setPC_pc, indirectTarget_eq_readWord, State.readWord, toNat_wordOf, Nat.add_comm, Nat.mul_comm]
  rfl

/-- Settles O46: JSR runs with PC at its address + 3, so the word it pushes is its address + 2. -/
theorem jsrPushesTheReturnAddressLessOne : Obligations.JsrPushesTheReturnAddressLessOne := by
  intro addr w s
  have hret : (s.setPC (addr + 3)).pc - 1 = addr + 2 := add_sub_assoc addr 3 1
  refine ⟨decode_encode (.jsr w), jumpToSubroutine w (s.setPC (addr + 3)), rfl,
    hret ▸ readMem_jumpToSubroutine_high _ w, hret ▸ readMem_jumpToSubroutine_low _ w,
    storesOnlyAt_jumpToSubroutine (s := s.setPC (addr + 3)) w, ?_, jumpToSubroutine_pc _ w,
    (frame_jumpToSubroutine _ w).of_setPC (by simp)⟩
  rw [jumpToSubroutine_sp, toNat_sub_one, toNat_sub_one, State.setPC_sp]
  omega

/-- Settles O47: the two bytes pulled are the ones one and two above SP, mod 256. -/
theorem rtsPullsTheReturnAddress : Obligations.RtsPullsTheReturnAddress := by
  intro s
  have hsp : (s.sp + 1 + 1).toNat = (s.sp.toNat + 2) % 256 := by
    rw [toNat_add_one, toNat_add_one, Nat.mod_add_mod]
  refine ⟨decode_encode .rts, returnFromSubroutine s, rfl, ?_, hsp, frame_returnFromSubroutine s⟩
  rw [returnFromSubroutine_pc, stackAddr_succ, stackAddr_succ, toNat_add_one, Nat.mod_add_mod, BitVec.toNat_add,
    toNat_wordOf, Nat.add_comm (_ * 256), Nat.mul_comm]
  rfl

/-- Settles O48: RTS takes the state JSR gives back to the PC that JSR ran with, and SP to its value before. -/
theorem rtsAfterJsrReturnsPastTheJsr : Obligations.RtsAfterJsrReturnsPastTheJsr := fun addr w s =>
  ⟨_, _, rfl, rfl, returnFromSubroutine_jumpToSubroutine_pc (s.setPC (addr + 3)) w,
    storesOnlyAt_returnFromSubroutine_jumpToSubroutine (s.setPC (addr + 3)) w,
    (frame_returnFromSubroutine_jumpToSubroutine (s.setPC (addr + 3)) w).of_setPC (by simp)⟩

end Sys2Proof.Claims

/-! Stack and flag instructions (`48_stack_flag.md` R220 to R230). -/

namespace Sys2Proof.Machine

variable (s : State)

theorem State.status_setStatus (v : Byte) : (s.setStatus v).status = v ||| 0x20 := by
  rw [State.status, State.setStatus_p, BitVec.or_assoc, BitVec.or_self]
  rfl

/-- The byte that PLP and RTI write has bit 5 set already. -/
theorem State.status_setStatus_pulledStatus (v : Byte) :
    (s.setStatus (pulledStatus v)).status = v &&& 0xEF ||| 0x20 := by
  rw [State.status_setStatus, pulledStatus, BitVec.or_assoc, BitVec.or_self]

/-- The copy of P that is pushed has bit 4 set and shows every other flag (R222). -/
theorem getLsbD_pushedStatus (f : Flag) : (pushedStatus s).getLsbD f.bit = if f = .b then true else s.flag f := by
  rw [pushedStatus, BitVec.getLsbD_or]
  cases f <;> simp [Flag.bit, State.flag]

/-- PLP takes back from the copy of P that PHP pushed every flag but B (R222, R223). -/
theorem flag_pullStatus_push_pushedStatus (f : Flag) :
    (pullStatus (s.push (pushedStatus s))).flag f = if f = .b then false else s.flag f := by
  have hpulled : (s.push (pushedStatus s)).readMem (stackAddr ((s.push (pushedStatus s)).sp + 1)) = pushedStatus s :=
    Claims.pull_push_fst s _
  rw [flag_pullStatus, hpulled, getLsbD_pushedStatus]
  split <;> rfl

end Sys2Proof.Machine

namespace Sys2Proof.Claims

open Sys2Proof.Machine

/-- The flags, as the parts that a write of the whole of P may change. -/
def allFlagParts : List Part := [.flag .c, .flag .z, .flag .i, .flag .d, .flag .b, .flag .v, .flag .n]

theorem flag_mem_allFlagParts (f : Flag) : .flag f ∈ allFlagParts :=
  List.mem_map_of_mem (f := Part.flag) (mem_allFlags f)

section Operations

variable (s : State)

theorem frame_setStatus (v : Byte) : Frame allFlagParts s (s.setStatus v) := by
  intro k hk
  cases k with
  | flag f => exact absurd (flag_mem_allFlagParts f) hk
  | mem => exact State.readMem_setStatus s v
  | _ => rfl

theorem frame_pullA : Frame [.a, .sp, .flag .z, .flag .n] s (pullA s) :=
  ((frame_pull s).mono (by simp)).trans ((frame_writeAZN _ _).mono (by simp))

theorem frame_pullStatus : Frame (.sp :: allFlagParts) s (pullStatus s) :=
  ((frame_pull s).mono (by simp)).trans ((frame_setStatus _ _).mono (by simp))

theorem frame_pullStatus_push_pushedStatus : Frame [.flag .b, .mem] s (pullStatus (s.push (pushedStatus s))) := by
  intro k hk
  cases k with
  | flag f => rw [Part.Kept, flag_pullStatus_push_pushedStatus, if_neg (by simpa using hk)]
  | mem => simp at hk
  | sp => exact BitVec.sub_add_cancel s.sp 1
  | a | x | y | pc => rfl

theorem storesOnlyAt_pullStatus_push (v : Byte) : StoresOnlyAt [stackAddr s.sp] s (pullStatus (s.push v)) :=
  fun addr haddr => (readMem_pullStatus _ addr).trans (storesOnlyAt_push s v addr haddr)

/-- A push of one byte does what R220 and R222 say, for A and for the copy of P. -/
theorem exec_of_push {i : Instr} {v : Byte} (hexec : exec i s = .next (s.push v)) :
    ∃ t, exec i s = .next t ∧ t.readMem (stackAddr s.sp) = v ∧ StoresOnlyAt [stackAddr s.sp] s t ∧
      t.sp.toNat = (s.sp.toNat + 255) % 256 ∧ t.status = s.status ∧ Frame [.sp, .mem] s t :=
  ⟨_, hexec, by rw [State.readMem_push, if_pos rfl], storesOnlyAt_push s v, toNat_sub_one s.sp, State.status_push s v,
    frame_push s v⟩

-- The table of R224 to R230 writes the bytes of its instructions, and every form is the one operation.

theorem flagForms_bytes : ∀ f ∈ flagForms, f.bytes = encode f.instr := List.map_inj_left.mp rfl

theorem flagForms_exec : ∀ f ∈ flagForms, exec f.instr s = .next (s.setFlag f.flag f.on) := List.map_inj_left.mp rfl

end Operations

/-- Settles O49: each of the two is one push. -/
theorem pushInstructionsStoreOneByte : Obligations.PushInstructionsStoreOneByte := by
  intro s g hg
  obtain rfl | rfl : g = ([0x48], .pha, s.a) ∨ g = ([0x08], .php, s.status ||| 0x30) := by simpa using hg
  · exact ⟨decode_encode .pha, exec_of_push s rfl⟩
  · exact ⟨decode_encode .php, exec_of_push s rfl⟩

/-- Settles O50: each of the two is one pull, of the byte one above SP mod 256. -/
theorem pullInstructionsTakeOneByte : Obligations.PullInstructionsTakeOneByte := by
  intro s
  dsimp only
  rw [← stackAddr_succ]
  exact ⟨⟨decode_encode .pla, pullA s, rfl, pullA_a s, toNat_add_one s.sp, znFrom_writeAZN _ _, frame_pullA s⟩,
    ⟨decode_encode .plp, pullStatus s, rfl, State.status_setStatus_pulledStatus _ _, toNat_add_one s.sp,
      frame_pullStatus s⟩⟩

/-- Settles O51: PLP pulls the copy of P that PHP pushed. -/
theorem plpAfterPhpRestoresEveryFlagButBreak : Obligations.PlpAfterPhpRestoresEveryFlagButBreak := fun s =>
  ⟨_, _, rfl, rfl, flag_pullStatus_push_pushedStatus s .b, storesOnlyAt_pullStatus_push s _,
    frame_pullStatus_push_pushedStatus s⟩

/-- Settles O52: every form is one write of its flag. -/
theorem flagInstructionsWriteOneFlag : Obligations.FlagInstructionsWriteOneFlag := fun s f hf =>
  ⟨flagForms_bytes f hf ▸ decode_encode f.instr, _, flagForms_exec s f hf,
    by rw [State.flag_setFlag, if_pos rfl], frame_setFlag s f.flag f.on⟩

end Sys2Proof.Claims

/-! BRK, RTI and NOP (`49_system.md` R240 to R242; `60_exceptions.md` R264, R266). -/

namespace Sys2Proof.Machine

variable (s : State)

theorem readMem_takeBreak_pushFrame (addr : Word) :
    (takeBreak .pushFrame s).readMem addr = (pushBreakFrame s).readMem addr := rfl

-- What an entry with a frame leaves on the stack (R240): the three bytes lie at three addresses.

theorem readMem_takeBreak_high : (takeBreak .pushFrame s).readMem (stackAddr s.sp) = hiByte (s.pc + 1) := by
  have h1 : s.sp ≠ s.sp - 1 := by bv_omega
  have h2 : s.sp ≠ s.sp - 1 - 1 := by bv_omega
  rw [readMem_takeBreak_pushFrame, readMem_pushBreakFrame, if_neg (mt stackAddr_inj.1 h2),
    if_neg (mt stackAddr_inj.1 h1), if_pos rfl]

theorem readMem_takeBreak_low : (takeBreak .pushFrame s).readMem (stackAddr (s.sp - 1)) = loByte (s.pc + 1) := by
  have h : s.sp - 1 ≠ s.sp - 1 - 1 := by bv_omega
  rw [readMem_takeBreak_pushFrame, readMem_pushBreakFrame, if_neg (mt stackAddr_inj.1 h), if_pos rfl]

theorem readMem_takeBreak_status : (takeBreak .pushFrame s).readMem (stackAddr (s.sp - 2)) = pushedStatus s := by
  have h : s.sp - 2 = s.sp - 1 - 1 := (BitVec.sub_sub s.sp 1 1).symm
  rw [readMem_takeBreak_pushFrame, readMem_pushBreakFrame, if_pos (congrArg stackAddr h)]

theorem takeBreak_pushFrame_sp : (takeBreak .pushFrame s).sp = s.sp - 3 := pushBreakFrame_sp s

theorem returnFromInterrupt_status :
    (returnFromInterrupt s).status = s.readMem (stackAddr (s.sp + 1)) &&& 0xEF ||| 0x20 :=
  State.status_setStatus_pulledStatus s.pull.2 _

-- RTI after an entry with a frame pulls the frame (R241): SP is three below where the entry found it.

theorem returnFromInterrupt_takeBreak_sp : (returnFromInterrupt (takeBreak .pushFrame s)).sp = s.sp := by
  rw [returnFromInterrupt_sp, takeBreak_pushFrame_sp]
  bv_omega

theorem returnFromInterrupt_takeBreak_pc : (returnFromInterrupt (takeBreak .pushFrame s)).pc = s.pc + 1 := by
  have hlow : s.sp - 3 + 1 + 1 = s.sp - 1 := by bv_omega
  have hhigh : s.sp - 3 + 1 + 1 + 1 = s.sp := by bv_omega
  rw [returnFromInterrupt_pc, takeBreak_pushFrame_sp, hhigh, hlow, readMem_takeBreak_high,
    readMem_takeBreak_low, wordOf_hiByte_loByte]

theorem flag_returnFromInterrupt_takeBreak (f : Flag) :
    (returnFromInterrupt (takeBreak .pushFrame s)).flag f = if f = .b then false else s.flag f := by
  have hstatus : s.sp - 3 + 1 = s.sp - 2 := by bv_omega
  rw [flag_returnFromInterrupt, takeBreak_pushFrame_sp, hstatus, readMem_takeBreak_status,
    getLsbD_pushedStatus]
  split <;> rfl

end Sys2Proof.Machine

namespace Sys2Proof.Claims

open Sys2Proof.Machine

section Operations

variable (s : State)

theorem frame_takeBreak_vectorOnly : Frame [.pc, .flag .b, .flag .i] s (takeBreak .vectorOnly s) :=
  (((frame_setFlag s .b true).mono (by simp)).trans ((frame_setFlag _ .i true).mono (by simp))).trans
    ((frame_setPC _ _).mono (by simp))

theorem frame_pushBreakFrame : Frame [.sp, .mem] s (pushBreakFrame s) :=
  ((frame_push s _).trans (frame_push _ _)).trans (frame_push _ _)

theorem frame_takeBreak_pushFrame : Frame [.pc, .sp, .mem, .flag .b, .flag .i] s (takeBreak .pushFrame s) :=
  ((frame_pushBreakFrame s).mono (by simp)).trans ((frame_takeBreak_vectorOnly _).mono (by simp))

theorem storesOnlyAt_takeBreak_pushFrame :
    StoresOnlyAt [stackAddr s.sp, stackAddr (s.sp - 1), stackAddr (s.sp - 2)] s (takeBreak .pushFrame s) :=
  fun addr haddr => (readMem_takeBreak_pushFrame s addr).trans (storesOnlyAt_pushBreakFrame addr haddr)

theorem frame_returnFromInterrupt : Frame (.pc :: .sp :: allFlagParts) s (returnFromInterrupt s) := by
  have hstatus : Frame (.sp :: allFlagParts) s (pullStatus s).pull.2.pull.2 :=
    ((frame_pullStatus s).trans ((frame_pull _).mono (by simp))).trans ((frame_pull _).mono (by simp))
  exact (hstatus.mono (List.subset_cons_self _ _)).trans ((frame_setPC _ _).mono (by simp))

/-- The entry with a frame, then RTI: SP and the flags but B are back, so only PC, memory and B may differ. -/
theorem frame_returnFromInterrupt_takeBreak :
    Frame [.pc, .mem, .flag .b] s (returnFromInterrupt (takeBreak .pushFrame s)) := by
  intro k hk
  cases k with
  | flag f => rw [Part.Kept, flag_returnFromInterrupt_takeBreak, if_neg (by simpa using hk)]
  | pc | mem => simp at hk
  | sp => exact returnFromInterrupt_takeBreak_sp s
  | a => exact (returnFromInterrupt_a _).trans (takeBreak_a s _)
  | x => exact (returnFromInterrupt_x _).trans (takeBreak_x s _)
  | y => exact (returnFromInterrupt_y _).trans (takeBreak_y s _)

theorem storesOnlyAt_returnFromInterrupt_takeBreak :
    StoresOnlyAt [stackAddr s.sp, stackAddr (s.sp - 1), stackAddr (s.sp - 2)] s
      (returnFromInterrupt (takeBreak .pushFrame s)) :=
  fun addr haddr => (readMem_returnFromInterrupt _ addr).trans (storesOnlyAt_takeBreak_pushFrame s addr haddr)

/-- PC past the opcode of BRK is its address + 1, so the word in the frame is its address + 2. -/
theorem setPC_add_one_pc (addr : Word) : (s.setPC (addr + 1)).pc + 1 = addr + 2 := add_assoc addr 1 1

/-- The shared entry does what R240 says, for each value of `BRK_MODE`. -/
theorem breakEffect_takeBreak (mode : Config.BrkMode) (addr : Word) :
    BreakEffect mode addr s (takeBreak mode (s.setPC (addr + 1))) := by
  have hb := flag_takeBreak (s.setPC (addr + 1)) mode .b
  have hi := flag_takeBreak (s.setPC (addr + 1)) mode .i
  refine ⟨hb, hi, takeBreak_pc _ mode, ?_⟩
  cases mode with
  | vectorOnly => exact (frame_takeBreak_vectorOnly _).of_setPC (by simp)
  | pushFrame =>
    have hret := setPC_add_one_pc s addr
    refine ⟨(readMem_takeBreak_high (s.setPC (addr + 1))).trans (congrArg hiByte hret),
      (readMem_takeBreak_low (s.setPC (addr + 1))).trans (congrArg loByte hret),
      readMem_takeBreak_status (s.setPC (addr + 1)), storesOnlyAt_takeBreak_pushFrame (s.setPC (addr + 1)), ?_,
      (frame_takeBreak_pushFrame _).of_setPC (by simp)⟩
    rw [takeBreak_pushFrame_sp, State.setPC_sp, BitVec.toNat_sub, Nat.add_comm]
    rfl

end Operations

/-- Settles O53: BRK is the shared entry, whatever `BRK_MODE` is. -/
theorem brkEntersThroughTheVector : Obligations.BrkEntersThroughTheVector := fun addr s =>
  ⟨decode_encode .brk, ⟨_, rfl, breakEffect_takeBreak s Config.brkMode addr⟩,
    fun mode => breakEffect_takeBreak s mode addr⟩

/-- Settles O54: the three bytes pulled are the ones one, two and three above SP, mod 256. -/
theorem rtiPullsStatusThenPc : Obligations.RtiPullsStatusThenPc := by
  intro s
  refine ⟨decode_encode .rti, returnFromInterrupt s, rfl, ?_, ?_, ?_, frame_returnFromInterrupt s⟩
  · rw [returnFromInterrupt_status, stackAddr_succ]
  · rw [returnFromInterrupt_pc, toNat_wordOf, Nat.add_comm, Nat.mul_comm]
    simp only [stackAddr_succ, toNat_add_one, Nat.mod_add_mod, Nat.add_assoc]
  · rw [returnFromInterrupt_sp, toNat_add_one, toNat_add_one, toNat_add_one]
    omega

/-- Settles O55: RTI takes the state the entry gives back to the PC in the frame, and SP to its value before. -/
theorem rtiAfterAFramedBreakReturns : Obligations.RtiAfterAFramedBreakReturns := fun addr s =>
  ⟨_, rfl, (returnFromInterrupt_takeBreak_pc _).trans (setPC_add_one_pc s addr),
    flag_returnFromInterrupt_takeBreak _ .b, storesOnlyAt_returnFromInterrupt_takeBreak (s.setPC (addr + 1)),
    (frame_returnFromInterrupt_takeBreak _).of_setPC (by simp)⟩

/-- Settles O56: a step of NOP is the fetch of its one byte. -/
theorem nopChangesOnlyPc : Obligations.NopChangesOnlyPc := fun _ =>
  ⟨decode_encode .nop, rfl, fun h => step_i1 h rfl⟩

end Sys2Proof.Claims

/-! The one exception, and Reset (`60_exceptions.md` R260 to R262, `70_reset_and_hazards.md` R290, R292). -/

namespace Sys2Proof.Machine

/-- A step on an assigned opcode byte completes: the fetch finds an instruction, and every instruction has an effect. -/
theorem step_completes {s : State} {form : Form} (hop : opcodeForm s.nextOpcode = some form) :
    ∃ t, step s = .next t := by
  cases form with
  | i1 i =>
    obtain ⟨t, ht, -⟩ := exec_effect i (s.setPC (s.pc + 1))
    exact ⟨t, (step_i1 rfl hop).trans ht⟩
  | b2 k =>
    obtain ⟨t, ht, -⟩ := exec_effect (k (s.readMem (s.pc + 1))) (s.setPC (s.pc + 2))
    exact ⟨t, (step_b2 rfl hop).trans ht⟩
  | w3 k =>
    obtain ⟨t, ht, -⟩ :=
      exec_effect (k (wordOf (s.readMem (s.pc + 2)) (s.readMem (s.pc + 1)))) (s.setPC (s.pc + 3))
    exact ⟨t, (step_w3 rfl hop).trans ht⟩

theorem step_of_mem_unassignedOpcodes {s : State} (h : s.nextOpcode ∈ unassignedOpcodes) :
    step s = .fault (.unimplementedOpcode s.nextOpcode (s.setPC (s.pc + 1))) :=
  step_unassigned rfl ((opcodeForm_eq_none_iff _).2 h)

theorem serve_step_of_fault {s after : State} {op : Byte} (h : step s = .fault (.unimplementedOpcode op after)) :
    serve .step s = (.unimplementedOpcode op, after) := by
  rw [serve, h]

end Sys2Proof.Machine

namespace Sys2Proof.Claims

open Sys2Proof.Machine

/-- Settles O6: the bytes R86 lists are the ones the decoder gives no form, and only on these does a step fault. -/
theorem unassignedOpcodeFaults : Obligations.UnassignedOpcodeFaults := by
  refine ⟨rfl, fun s => ⟨step_of_mem_unassignedOpcodes, fun op t h => ?_⟩⟩
  obtain ⟨hop, hr⟩ := step_fault h
  obtain ⟨rfl, rfl⟩ : op = s.nextOpcode ∧ t = s.setPC (s.pc + 1) := by simpa using hr
  exact ⟨rfl, (opcodeForm_eq_none_iff _).1 hop, rfl⟩

/-- Settles O7: the decoder gives the opcode byte a form, and the step completes; or none, and the step faults. -/
theorem assignedOpcodeAlwaysCompletes : Obligations.AssignedOpcodeAlwaysCompletes := by
  intro s
  refine ⟨fun h => ?_, fun r h => ⟨_, (step_fault h).2⟩, fun r h => ?_⟩
  · obtain ⟨form, hop⟩ := Option.ne_none_iff_exists'.mp (mt (opcodeForm_eq_none_iff _).1 h)
    exact step_completes hop
  · cases hop : opcodeForm s.nextOpcode with
    | none => simp [step_unassigned rfl hop] at h
    | some form =>
      obtain ⟨t, ht⟩ := step_completes hop
      simp [ht] at h

/-- Settles O8: the fault hands the driver the state it carries, with PC at the next byte. -/
theorem driverMayStepAgainAfterAFault : Obligations.DriverMayStepAgainAfterAFault := by
  intro s h
  have hserve := serve_step_of_fault (step_of_mem_unassignedOpcodes h)
  exact ⟨hserve, by rw [hserve]; rfl⟩

/-- Settles O15: Reset reads memory alone and leaves it as it is; memory is empty at construction. -/
theorem resetIsIdempotentAndResetStateIsResetOfConstruction :
    Obligations.ResetIsIdempotentAndResetStateIsResetOfConstruction :=
  ⟨fun _ => rfl, rfl, rfl, rfl, rfl, rfl, rfl, rfl, fun _ => rfl⟩

end Sys2Proof.Claims

/-! What the host does to the registers (`10_state.md` R31, R36, R37, R39). -/

namespace Sys2Proof.Claims

open Sys2Proof.Machine

theorem frame_setA (s : State) (v : Byte) : Frame [.a] s (s.setA v) := by
  intro k hk
  cases k with
  | a => simp at hk
  | mem => exact State.readMem_setA s v
  | _ => rfl

theorem frame_setSP (s : State) (v : Byte) : Frame [.sp] s (s.setSP v) := by
  intro k hk
  cases k with
  | sp => simp at hk
  | mem => exact State.readMem_setSP s v
  | _ => rfl

/-- Settles O17: every host action on a register is one update of the state, with its frame. -/
theorem hostActionsOnRegisters : Obligations.HostActionsOnRegisters := fun s v =>
  ⟨⟨BitVec.toNat_ofNat v 8, frame_setA s _⟩, ⟨BitVec.toNat_ofNat v 8, frame_setX s _⟩,
    ⟨BitVec.toNat_ofNat v 8, frame_setY s _⟩, ⟨BitVec.toNat_ofNat v 8, frame_setSP s _⟩,
    ⟨BitVec.toNat_ofNat v 16, frame_setPC s _⟩, ⟨State.status_setStatus s _, frame_setStatus s _⟩,
    ⟨State.readMem_writeMem_same s _ _, State.push_sp s _, storesOnlyAt_push s _, frame_push s _⟩,
    ⟨State.pull_fst s, State.pull_snd_sp s, frame_pull s⟩⟩

end Sys2Proof.Claims

/-! The pointer modes (`40_fetch_addressing.md` R110, R111), for both values of `ZP_PTR_WRAP`. -/

namespace Sys2Proof.Machine

variable (s : State) (b p : Byte)

theorem pointerHighAddr_true : pointerHighAddr true p = BitVec.ofNat 16 ((p.toNat + 1) % 256) := by
  rw [← toNat_add_one, ← zext16_eq_ofNat]
  rfl

theorem pointerHighAddr_false : pointerHighAddr false p = BitVec.ofNat 16 (p.toNat + 1) := by
  rw [BitVec.ofNat_add, ← zext16_eq_ofNat]
  rfl

theorem toNat_zeroPagePointer (wrap : Bool) : (zeroPagePointer wrap p s).toNat =
    (s.readMem (BitVec.ofNat 16 p.toNat)).toNat + 256 * (s.readMem (pointerHighAddr wrap p)).toNat := by
  rw [zeroPagePointer, State.readWord, toNat_wordOf, zext16_eq_ofNat, Nat.add_comm, Nat.mul_comm]

theorem toNat_indirectYWith (wrap : Bool) : (indirectYWith wrap b s).toNat =
    ((s.readMem (BitVec.ofNat 16 b.toNat)).toNat +
      256 * (s.readMem (pointerHighAddr wrap b)).toNat + s.y.toNat) % 65536 := by
  rw [indirectYWith, BitVec.toNat_add, toNat_zext16, toNat_zeroPagePointer]

/-- The byte at an address given by its number. -/
theorem readMem_eq_of_toNat {addr : Word} {n : Nat} (h : addr.toNat = n) :
    s.readMem addr = s.readMem (BitVec.ofNat 16 n) := by
  rw [← h, BitVec.ofNat_toNat, BitVec.setWidth_eq]

end Sys2Proof.Machine

namespace Sys2Proof.Claims

open Sys2Proof.Machine

/-- Settles O22: A1 loads A through the pointer at b + X, and the model's `ZP_PTR_WRAP` is true. -/
theorem indirectXMode : Obligations.IndirectXMode := by
  intro s
  dsimp only
  have hp : (s.readMem (s.pc + 1) + s.x).toNat = ((s.readMem (s.pc + 1)).toNat + s.x.toNat) % 256 :=
    BitVec.toNat_add _ _
  have htrue := toNat_zeroPagePointer s (s.readMem (s.pc + 1) + s.x) true
  have hfalse := toNat_zeroPagePointer s (s.readMem (s.pc + 1) + s.x) false
  rw [pointerHighAddr_true, hp] at htrue
  rw [pointerHighAddr_false, hp] at hfalse
  exact ⟨fun h => ⟨_, step_b2 h rfl, rfl, readMem_eq_of_toNat s htrue⟩, htrue, hfalse⟩

/-- Settles O23: B1 loads A at Y past the pointer at b, and the model's `ZP_PTR_WRAP` is true. -/
theorem indirectYMode : Obligations.IndirectYMode := by
  intro s
  dsimp only
  have htrue := toNat_indirectYWith s (s.readMem (s.pc + 1)) true
  have hfalse := toNat_indirectYWith s (s.readMem (s.pc + 1)) false
  rw [pointerHighAddr_true] at htrue
  rw [pointerHighAddr_false] at hfalse
  exact ⟨fun h => ⟨_, step_b2 h rfl, rfl, readMem_eq_of_toNat s htrue⟩, htrue, hfalse⟩

end Sys2Proof.Claims

/-! The adder, and SBC after ADC (`41_arithmetic.md` R130, R134). -/

namespace Sys2Proof.Machine

/-- The overflow formula of R130 as it is written there. -/
theorem addCore_vout (a m : Byte) (c : Bool) : (addCore a m c).vout =
    (decide ((a ^^^ (addCore a m c).r) &&& 0x80 ≠ 0) && decide ((a ^^^ m) &&& 0x80 = 0)) := by
  rw [addCore, bne, beq_eq_decide, beq_eq_decide, decide_not]

end Sys2Proof.Machine

namespace Sys2Proof.Claims

open Sys2Proof.Machine

/-- Settles O25: the formulas of R130 are the model's, and the overflow is that of the signed sum. -/
theorem adderIsExact : Obligations.AdderIsExact := fun a m c =>
  ⟨toNat_addCore_r a m c, addCore_cout a m c, addCore_vout a m c, addCore_vout_iff a m c⟩

/-- Law 2 of R134 from any state `t` whose A is the sum: SBC of the same byte gives the first summand back exactly when
`t` has the other carry. -/
theorem subtractWithBorrow_a_eq_iff {a m : Byte} {c : Bool} {t : State} (ha : t.a = (addCore a m c).r) :
    (subtractWithBorrow (.imm m) t).a = a ↔ t.flag .c ≠ c := by
  have hsub := toNat_subtractWithBorrow_a (.imm m) t
  have hcarry : t.flag .c ≠ c ↔ (t.flag .c).toNat + c.toNat = 1 := by
    cases t.flag .c <;> cases c <;> decide
  have := a.isLt
  have := c.toNat_le
  have := (t.flag .c).toNat_le
  rw [ha, toNat_addCore_r, Source.read] at hsub
  rw [← BitVec.toNat_inj, hcarry]
  omega

/-- Settles O28: the two subtractions start from the sum, with the carry the other way and with the carry ADC made. -/
theorem adcThenSbcRestoresA : Obligations.AdcThenSbcRestoresA := by
  intro m s
  refine ⟨addWithCarry (.imm m) s, _, _, rfl, rfl, ?_, rfl, subtractWithBorrow_a_eq_iff rfl⟩
  refine (subtractWithBorrow_a_eq_iff rfl).2 ?_
  rw [State.flag_setFlag, if_pos rfl]
  exact Bool.not_ne_self _

end Sys2Proof.Claims

/-! The transfers R188 to R191 (`46_load_store_transfer.md` section 3), and the words the spec writes out
(`30_encoding.md` R84, R89). -/

namespace Sys2Proof.Claims

open Sys2Proof.Machine

/-- Settles O43: each transfer writes its register, all but TXS with Z and N. -/
theorem otherTransfersCopyARegister : Obligations.OtherTransfersCopyARegister := fun s =>
  ⟨⟨decode_encode .txa, _, rfl, writeAZN_a s s.x, znFrom_writeAZN s.x s, frame_writeAZN s.x s⟩,
    ⟨decode_encode .tya, _, rfl, writeAZN_a s s.y, znFrom_writeAZN s.y s, frame_writeAZN s.y s⟩,
    ⟨decode_encode .tsx, _, rfl, writeXZN_x s s.sp, znFrom_writeXZN s.sp s, frame_writeXZN s.sp s⟩,
    ⟨decode_encode .txs, _, rfl, State.setSP_sp s s.x, frame_setSP s s.x⟩⟩

/-- Settles O4: each word is the encoding of its instruction. -/
theorem specWordsDecode : Obligations.SpecWordsDecode :=
  ⟨decode_encode (.ldaImm 0x03), decode_encode (.adcImm 0x05), decode_encode (.staAbs 0x6000),
    decode_encode (.ldaZp 0x10), decode_encode (.ldaZpX 0x10), decode_encode (.ldxZpY 0x10),
    decode_encode (.ldaAbsX 0x1234), decode_encode (.ldaAbsY 0x1234), decode_encode (.jmpInd 0x10FF),
    decode_encode (.ldaIndX 0x20), decode_encode (.ldaIndY 0x20), decode_encode (.beq 0x05), decode_encode .aslAcc,
    decode_encode .inx⟩

end Sys2Proof.Claims
